-- ==== Sys2Proof/Word.lean ====
section
/-! DEFINITION. The word types of the machine (00_scope R8, R10): a CPU byte, a CPU address and the PPU's own widths. -/

namespace Sys2Proof

/-- One byte: the CPU's data width (00_scope R8). -/
abbrev Byte := BitVec 8

/-- A CPU address, and the width of PC (00_scope R8). -/
abbrev Word := BitVec 16

/-- An address on the PPU bus, 14 bits (00_scope R8). -/
abbrev VAddr := BitVec 14

/-- The PPU's address registers v and t, 15 bits (10_state R60). -/
abbrev Scroll := BitVec 15

end Sys2Proof
end

