-- ==== Sys2Proof/Machine/Bits.lean ====
section
/-! DEFINITION. The bit-field and byte-order helpers of 00_scope R10: `lo`, `hi`, `{hi, lo}`, extension, field writes, `Rev8`. -/

namespace Sys2Proof.Machine

/-- `lo(w) = w[7:0]` (00_scope R10). -/
def lo (w : Word) : Byte := w.extractLsb' 0 8

/-- `hi(w) = w[15:8]` (00_scope R10). -/
def hi (w : Word) : Byte := w.extractLsb' 8 8

/-- `{h, l}`: h in the upper bits (00_scope R10); little-endian words are put together with it (20_memory R150). -/
def mkWord (h l : Byte) : Word := h ++ l

/-- `zext_16(v)` (00_scope R10). -/
def zext16 (v : Byte) : Word := v.setWidth 16

/-- `sext_16(v)` (00_scope R10). -/
def sext16 (v : Byte) : Word := v.signExtend 16

/-- The mask of a field of `w` bits whose lowest bit is bit `at'` of an `n`-bit value. -/
def fieldMask (n at' w : Nat) : BitVec n := ((BitVec.allOnes w).setWidth n) <<< at'

/-- `v[at'+w-1 : at'] <- f`: the field is replaced and every other bit kept. -/
def setField {n w : Nat} (v : BitVec n) (at' : Nat) (f : BitVec w) : BitVec n :=
  (v &&& ~~~ fieldMask n at' w) ||| ((f.setWidth n) <<< at')

/-- `Rev8(b)`: bit i of the result is bit 7-i of b (50_ppu R627). -/
def rev8 (b : Byte) : Byte :=
  BitVec.ofBool (b.getLsbD 0) ++ BitVec.ofBool (b.getLsbD 1) ++ BitVec.ofBool (b.getLsbD 2) ++
    BitVec.ofBool (b.getLsbD 3) ++ BitVec.ofBool (b.getLsbD 4) ++ BitVec.ofBool (b.getLsbD 5) ++
    BitVec.ofBool (b.getLsbD 6) ++ BitVec.ofBool (b.getLsbD 7)

end Sys2Proof.Machine
end

