-- ==== Sys2Proof/Config.lean ====
section
/-! DEFINITION. The named parameters of the machine (00_scope R9) and its free values (00_scope R13 `draw`). -/

namespace Sys2Proof

/-- The parameters of 00_scope R9, which the model takes as data of the state, so that a statement about every state
holds for every choice of them. Their defaults are `Sys2Proof.Machine.defaultConfig`. -/
structure Config where
  /-- The mapper identifiers `Load` accepts (D29). -/
  supportedMappers : List Nat
  /-- Whether an asserted, unmasked IRQ line is taken (60_exceptions R911, D7). -/
  irqServiced : Bool
  /-- The base cycle count of each opcode byte, 256 entries (30_encoding R276, D10). -/
  cycleTable : List Nat
  /-- Whether a page cross costs a read one more cycle (30_encoding R268, D10). -/
  pageCrossPenalty : Bool
  /-- The last address of the PPU register window (20_memory R151, D15). -/
  ppuRegWindowEnd : Word
  /-- Dots in a line (50_ppu R621, D19). -/
  dotsPerLine : Nat
  /-- Lines in a frame (50_ppu R621, D19). -/
  linesPerFrame : Nat
  /-- The line whose dot 1 sets the vertical-blank flag (50_ppu R622, D19). -/
  vblankLine : Nat
  /-- The line before line 0 (50_ppu R622, D19). -/
  prescanLine : Nat
  /-- What a palette write keeps of the data (20_memory R161, D24). -/
  paletteMask : Byte
  /-- What a $4014 write adds to the cost of its instruction (50_ppu R606, D17). -/
  oamDmaCycles : Nat
  deriving DecidableEq, Repr

/-- The n-th `draw` of a run: "a fresh unconstrained value" (00_scope R13). It has no body, so no proof can rest on a
value of it. The field `draws` of the state counts the draws taken. DESIGN CHOICE, log 4; safe. -/
opaque Config.draw : Nat → Byte

end Sys2Proof
end

