-- ==== Sys2Proof/Syntax.lean ====
section
/-! DEFINITION. The instruction set as syntax: addressing modes (30_encoding R252), operation kinds (10_state R57), one
constructor of `Instr` for each row of spec/opcode_table.json (30_encoding R269), and the micro-op of 10_state R57. -/

namespace Sys2Proof

/-- The thirteen addressing modes (30_encoding R252). -/
inductive Mode where
  /-- implied (30_encoding R255) -/
  | imp
  /-- accumulator (R256) -/
  | acc
  /-- immediate (R257) -/
  | imm
  /-- zero page (R258) -/
  | zp
  /-- zero page indexed by X (R259) -/
  | zpx
  /-- zero page indexed by Y (R260) -/
  | zpy
  /-- absolute (R261) -/
  | abs
  /-- absolute indexed by X (R264) -/
  | abx
  /-- absolute indexed by Y (R265) -/
  | aby
  /-- indirect, JMP only (R266) -/
  | ind
  /-- indexed indirect (R262) -/
  | izx
  /-- indirect indexed (R263) -/
  | izy
  /-- relative, branches only (R267) -/
  | rel
  deriving DecidableEq, Repr

/-- The operation kind of a micro-op: a mnemonic of 30_encoding R269, or `Undefined` (R271). -/
inductive Kind where
  | adc | and | asl | bcc | bcs | beq | bit | bmi
  | bne | bpl | brk | bvc | bvs | clc | cld | cli
  | clv | cmp | cpx | cpy | dec | dex | dey | eor
  | inc | inx | iny | jmp | jsr | lda | ldx | ldy
  | lsr | nop | ora | pha | php | pla | plp | rol
  | ror | rti | rts | sbc | sec | sed | sei | sta
  | stx | sty | tax | tay | tsx | txa | txs | tya
  /-- One of the 105 bytes with no documented instruction (30_encoding R271). -/
  | undefined
  deriving DecidableEq, Repr

/-- One constructor for each row of spec/opcode_table.json. An operand is the operand byte, or the operand word
assembled little-endian (30_encoding R253): its type is exactly as wide as the encoding, and every operand byte is free
data (R272), so no term of this type is ill-formed. A constructor with no argument has no operand byte. -/
inductive Instr where
  /-- ADC izx, opcode $61 -/
  | adcIzx (op : Byte)
  /-- ADC zp, opcode $65 -/
  | adcZp (op : Byte)
  /-- ADC imm, opcode $69 -/
  | adcImm (op : Byte)
  /-- ADC abs, opcode $6D -/
  | adcAbs (op : Word)
  /-- ADC izy, opcode $71 -/
  | adcIzy (op : Byte)
  /-- ADC zpx, opcode $75 -/
  | adcZpx (op : Byte)
  /-- ADC aby, opcode $79 -/
  | adcAby (op : Word)
  /-- ADC abx, opcode $7D -/
  | adcAbx (op : Word)
  /-- AND izx, opcode $21 -/
  | andIzx (op : Byte)
  /-- AND zp, opcode $25 -/
  | andZp (op : Byte)
  /-- AND imm, opcode $29 -/
  | andImm (op : Byte)
  /-- AND abs, opcode $2D -/
  | andAbs (op : Word)
  /-- AND izy, opcode $31 -/
  | andIzy (op : Byte)
  /-- AND zpx, opcode $35 -/
  | andZpx (op : Byte)
  /-- AND aby, opcode $39 -/
  | andAby (op : Word)
  /-- AND abx, opcode $3D -/
  | andAbx (op : Word)
  /-- ASL zp, opcode $06 -/
  | aslZp (op : Byte)
  /-- ASL acc, opcode $0A -/
  | aslAcc
  /-- ASL abs, opcode $0E -/
  | aslAbs (op : Word)
  /-- ASL zpx, opcode $16 -/
  | aslZpx (op : Byte)
  /-- ASL abx, opcode $1E -/
  | aslAbx (op : Word)
  /-- BCC rel, opcode $90 -/
  | bcc (op : Byte)
  /-- BCS rel, opcode $B0 -/
  | bcs (op : Byte)
  /-- BEQ rel, opcode $F0 -/
  | beq (op : Byte)
  /-- BIT zp, opcode $24 -/
  | bitZp (op : Byte)
  /-- BIT abs, opcode $2C -/
  | bitAbs (op : Word)
  /-- BMI rel, opcode $30 -/
  | bmi (op : Byte)
  /-- BNE rel, opcode $D0 -/
  | bne (op : Byte)
  /-- BPL rel, opcode $10 -/
  | bpl (op : Byte)
  /-- BRK imp, opcode $00 -/
  | brk
  /-- BVC rel, opcode $50 -/
  | bvc (op : Byte)
  /-- BVS rel, opcode $70 -/
  | bvs (op : Byte)
  /-- CLC imp, opcode $18 -/
  | clc
  /-- CLD imp, opcode $D8 -/
  | cld
  /-- CLI imp, opcode $58 -/
  | cli
  /-- CLV imp, opcode $B8 -/
  | clv
  /-- CMP izx, opcode $C1 -/
  | cmpIzx (op : Byte)
  /-- CMP zp, opcode $C5 -/
  | cmpZp (op : Byte)
  /-- CMP imm, opcode $C9 -/
  | cmpImm (op : Byte)
  /-- CMP abs, opcode $CD -/
  | cmpAbs (op : Word)
  /-- CMP izy, opcode $D1 -/
  | cmpIzy (op : Byte)
  /-- CMP zpx, opcode $D5 -/
  | cmpZpx (op : Byte)
  /-- CMP aby, opcode $D9 -/
  | cmpAby (op : Word)
  /-- CMP abx, opcode $DD -/
  | cmpAbx (op : Word)
  /-- CPX imm, opcode $E0 -/
  | cpxImm (op : Byte)
  /-- CPX zp, opcode $E4 -/
  | cpxZp (op : Byte)
  /-- CPX abs, opcode $EC -/
  | cpxAbs (op : Word)
  /-- CPY imm, opcode $C0 -/
  | cpyImm (op : Byte)
  /-- CPY zp, opcode $C4 -/
  | cpyZp (op : Byte)
  /-- CPY abs, opcode $CC -/
  | cpyAbs (op : Word)
  /-- DEC zp, opcode $C6 -/
  | decZp (op : Byte)
  /-- DEC abs, opcode $CE -/
  | decAbs (op : Word)
  /-- DEC zpx, opcode $D6 -/
  | decZpx (op : Byte)
  /-- DEC abx, opcode $DE -/
  | decAbx (op : Word)
  /-- DEX imp, opcode $CA -/
  | dex
  /-- DEY imp, opcode $88 -/
  | dey
  /-- EOR izx, opcode $41 -/
  | eorIzx (op : Byte)
  /-- EOR zp, opcode $45 -/
  | eorZp (op : Byte)
  /-- EOR imm, opcode $49 -/
  | eorImm (op : Byte)
  /-- EOR abs, opcode $4D -/
  | eorAbs (op : Word)
  /-- EOR izy, opcode $51 -/
  | eorIzy (op : Byte)
  /-- EOR zpx, opcode $55 -/
  | eorZpx (op : Byte)
  /-- EOR aby, opcode $59 -/
  | eorAby (op : Word)
  /-- EOR abx, opcode $5D -/
  | eorAbx (op : Word)
  /-- INC zp, opcode $E6 -/
  | incZp (op : Byte)
  /-- INC abs, opcode $EE -/
  | incAbs (op : Word)
  /-- INC zpx, opcode $F6 -/
  | incZpx (op : Byte)
  /-- INC abx, opcode $FE -/
  | incAbx (op : Word)
  /-- INX imp, opcode $E8 -/
  | inx
  /-- INY imp, opcode $C8 -/
  | iny
  /-- JMP abs, opcode $4C -/
  | jmpAbs (op : Word)
  /-- JMP ind, opcode $6C -/
  | jmpInd (op : Word)
  /-- JSR abs, opcode $20 -/
  | jsr (op : Word)
  /-- LDA izx, opcode $A1 -/
  | ldaIzx (op : Byte)
  /-- LDA zp, opcode $A5 -/
  | ldaZp (op : Byte)
  /-- LDA imm, opcode $A9 -/
  | ldaImm (op : Byte)
  /-- LDA abs, opcode $AD -/
  | ldaAbs (op : Word)
  /-- LDA izy, opcode $B1 -/
  | ldaIzy (op : Byte)
  /-- LDA zpx, opcode $B5 -/
  | ldaZpx (op : Byte)
  /-- LDA aby, opcode $B9 -/
  | ldaAby (op : Word)
  /-- LDA abx, opcode $BD -/
  | ldaAbx (op : Word)
  /-- LDX imm, opcode $A2 -/
  | ldxImm (op : Byte)
  /-- LDX zp, opcode $A6 -/
  | ldxZp (op : Byte)
  /-- LDX abs, opcode $AE -/
  | ldxAbs (op : Word)
  /-- LDX zpy, opcode $B6 -/
  | ldxZpy (op : Byte)
  /-- LDX aby, opcode $BE -/
  | ldxAby (op : Word)
  /-- LDY imm, opcode $A0 -/
  | ldyImm (op : Byte)
  /-- LDY zp, opcode $A4 -/
  | ldyZp (op : Byte)
  /-- LDY abs, opcode $AC -/
  | ldyAbs (op : Word)
  /-- LDY zpx, opcode $B4 -/
  | ldyZpx (op : Byte)
  /-- LDY abx, opcode $BC -/
  | ldyAbx (op : Word)
  /-- LSR zp, opcode $46 -/
  | lsrZp (op : Byte)
  /-- LSR acc, opcode $4A -/
  | lsrAcc
  /-- LSR abs, opcode $4E -/
  | lsrAbs (op : Word)
  /-- LSR zpx, opcode $56 -/
  | lsrZpx (op : Byte)
  /-- LSR abx, opcode $5E -/
  | lsrAbx (op : Word)
  /-- NOP imp, opcode $EA -/
  | nop
  /-- ORA izx, opcode $01 -/
  | oraIzx (op : Byte)
  /-- ORA zp, opcode $05 -/
  | oraZp (op : Byte)
  /-- ORA imm, opcode $09 -/
  | oraImm (op : Byte)
  /-- ORA abs, opcode $0D -/
  | oraAbs (op : Word)
  /-- ORA izy, opcode $11 -/
  | oraIzy (op : Byte)
  /-- ORA zpx, opcode $15 -/
  | oraZpx (op : Byte)
  /-- ORA aby, opcode $19 -/
  | oraAby (op : Word)
  /-- ORA abx, opcode $1D -/
  | oraAbx (op : Word)
  /-- PHA imp, opcode $48 -/
  | pha
  /-- PHP imp, opcode $08 -/
  | php
  /-- PLA imp, opcode $68 -/
  | pla
  /-- PLP imp, opcode $28 -/
  | plp
  /-- ROL zp, opcode $26 -/
  | rolZp (op : Byte)
  /-- ROL acc, opcode $2A -/
  | rolAcc
  /-- ROL abs, opcode $2E -/
  | rolAbs (op : Word)
  /-- ROL zpx, opcode $36 -/
  | rolZpx (op : Byte)
  /-- ROL abx, opcode $3E -/
  | rolAbx (op : Word)
  /-- ROR zp, opcode $66 -/
  | rorZp (op : Byte)
  /-- ROR acc, opcode $6A -/
  | rorAcc
  /-- ROR abs, opcode $6E -/
  | rorAbs (op : Word)
  /-- ROR zpx, opcode $76 -/
  | rorZpx (op : Byte)
  /-- ROR abx, opcode $7E -/
  | rorAbx (op : Word)
  /-- RTI imp, opcode $40 -/
  | rti
  /-- RTS imp, opcode $60 -/
  | rts
  /-- SBC izx, opcode $E1 -/
  | sbcIzx (op : Byte)
  /-- SBC zp, opcode $E5 -/
  | sbcZp (op : Byte)
  /-- SBC imm, opcode $E9 -/
  | sbcImm (op : Byte)
  /-- SBC abs, opcode $ED -/
  | sbcAbs (op : Word)
  /-- SBC izy, opcode $F1 -/
  | sbcIzy (op : Byte)
  /-- SBC zpx, opcode $F5 -/
  | sbcZpx (op : Byte)
  /-- SBC aby, opcode $F9 -/
  | sbcAby (op : Word)
  /-- SBC abx, opcode $FD -/
  | sbcAbx (op : Word)
  /-- SEC imp, opcode $38 -/
  | sec
  /-- SED imp, opcode $F8 -/
  | sed
  /-- SEI imp, opcode $78 -/
  | sei
  /-- STA izx, opcode $81 -/
  | staIzx (op : Byte)
  /-- STA zp, opcode $85 -/
  | staZp (op : Byte)
  /-- STA abs, opcode $8D -/
  | staAbs (op : Word)
  /-- STA izy, opcode $91 -/
  | staIzy (op : Byte)
  /-- STA zpx, opcode $95 -/
  | staZpx (op : Byte)
  /-- STA aby, opcode $99 -/
  | staAby (op : Word)
  /-- STA abx, opcode $9D -/
  | staAbx (op : Word)
  /-- STX zp, opcode $86 -/
  | stxZp (op : Byte)
  /-- STX abs, opcode $8E -/
  | stxAbs (op : Word)
  /-- STX zpy, opcode $96 -/
  | stxZpy (op : Byte)
  /-- STY zp, opcode $84 -/
  | styZp (op : Byte)
  /-- STY abs, opcode $8C -/
  | styAbs (op : Word)
  /-- STY zpx, opcode $94 -/
  | styZpx (op : Byte)
  /-- TAX imp, opcode $AA -/
  | tax
  /-- TAY imp, opcode $A8 -/
  | tay
  /-- TSX imp, opcode $BA -/
  | tsx
  /-- TXA imp, opcode $8A -/
  | txa
  /-- TXS imp, opcode $9A -/
  | txs
  /-- TYA imp, opcode $98 -/
  | tya
  deriving DecidableEq, Repr

/-- A decoded instruction inside a trace (10_state R57). -/
structure MicroOp where
  /-- The address of the opcode byte. -/
  addr : Word
  /-- The opcode byte. -/
  opcode : Byte
  /-- The addressing mode. -/
  mode : Mode
  /-- The operation kind. -/
  kind : Kind
  /-- The operand bytes assembled as in 30_encoding R253, or 0. -/
  operand : Word
  /-- The instruction-length increment: 1, 2 or 3. -/
  len : Nat
  deriving DecidableEq, Repr

/-- A trace: a non-empty list of micro-ops, those of a straight-line run of instructions (10_state R57). -/
structure Trace where
  first : MicroOp
  rest : List MicroOp
  deriving DecidableEq, Repr

/-- The micro-ops of a trace, in order. -/
def Trace.ops (t : Trace) : List MicroOp := t.first :: t.rest

end Sys2Proof
end

