-- ==== Sys2Proof/Machine/MicroOps.lean ====
section
/-! DEFINITION. The length of an addressing mode (30_encoding R251) and the end of a trace (31_decode_cache_and_run R305). -/

namespace Sys2Proof

/-- The length of an instruction is fixed by its addressing mode (30_encoding R251). -/
def Mode.length : Mode → Nat
  | .imp | .acc => 1
  | .imm | .zp | .zpx | .zpy | .rel | .izx | .izy => 2
  | .abs | .abx | .aby | .ind => 3

/-- The control transfers, which end a trace (31_decode_cache_and_run R305). -/
def Kind.isControlTransfer : Kind → Bool
  | .bcc | .bcs | .beq | .bmi | .bne | .bpl | .bvc | .bvs | .jmp | .jsr | .rts | .rti | .brk => true
  | _ => false

/-- `EndsTrace(mop)` (31_decode_cache_and_run R305). -/
def MicroOp.endsTrace (m : MicroOp) : Bool := m.kind.isControlTransfer || m.kind = .undefined

end Sys2Proof
end

