-- ==== Sys2Proof/WellFormed.lean ====
section
/-! DEFINITION. Well-formedness of the data that types alone do not settle: micro-ops and traces (10_state R57,
31_decode_cache_and_run R304, R305) and the machine's parameters (00_scope R9). An `Instr` has no ill-formed term. -/

namespace Sys2Proof

/-- A micro-op's length is its mode's (30_encoding R251), and its operand is no wider than its operand bytes (R253). -/
def MicroOp.wf (m : MicroOp) : Bool :=
  m.len = m.mode.length && (m.len ≠ 1 || m.operand = 0) && (m.len ≠ 2 || m.operand.toNat < 256)

/-- The shape `Build` gives the micro-ops from address `a` on: each well-formed and at the address where the one before it
ends, no end of trace but the last, and no wrap past $FFFF inside (31_decode_cache_and_run R304, R305). -/
def opsWfFrom (a : Word) : List MicroOp → Bool
  | [] => true
  | [m] => m.addr = a && m.wf
  | m :: n :: t =>
    m.addr = a && m.wf && !m.endsTrace && a.toNat + m.len < 65536 && opsWfFrom (a + BitVec.ofNat 16 m.len) (n :: t)

/-- A trace keyed by `key` has the shape `Build` gives it. -/
def Trace.wf (key : Word) (t : Trace) : Bool := opsWfFrom key t.ops

/-- The parameters a machine can be built with (00_scope R9): one cycle count for each opcode byte, a line with the dot 1
at which the flag events stand, the two event lines inside the frame, and a PPU register window that ends inside
$2000-$3FFF (20_memory R151). -/
def Config.wf (c : Config) : Bool :=
  c.cycleTable.length = 256 && 2 ≤ c.dotsPerLine && 1 ≤ c.linesPerFrame && c.vblankLine < c.linesPerFrame &&
    c.prescanLine < c.linesPerFrame && 0x2000 ≤ c.ppuRegWindowEnd.toNat && c.ppuRegWindowEnd.toNat < 0x4000

end Sys2Proof
end

