-- ==== Sys2Proof/Decode.lean ====
section
/-! DEFINITION. Decoding and encoding: the opcode map (30_encoding R269), operand assembly (R253), the decoder (R270),
total on any bytes and refusing by name, and after it the encoder. -/

namespace Sys2Proof

open Sys2Proof.Machine (lo hi mkWord zext16)

/-- Why the decoder gives no instruction. -/
inductive DecodeError where
  /-- The opcode byte is one of the 105 undefined ones (30_encoding R271). -/
  | undefinedOpcode (b : Byte)
  /-- The bytes end before the instruction does. -/
  | truncated
  deriving DecidableEq, Repr

/-- A cell of the opcode map: the operation kind and the addressing mode of an opcode byte. -/
abbrev OpcodeCell := Kind × Mode

/-- A cell marked `-` in 30_encoding R269: `(Undefined, imp)`, as R270 reads it. -/
def noOpcode : OpcodeCell := (.undefined, .imp)

/-- Row 0 of the map of 30_encoding R269. -/
def opcodeRow0 : List OpcodeCell :=
  [(.brk, .imp), (.ora, .izx), noOpcode, noOpcode, noOpcode, (.ora, .zp), (.asl, .zp), noOpcode,
   (.php, .imp), (.ora, .imm), (.asl, .acc), noOpcode, noOpcode, (.ora, .abs), (.asl, .abs), noOpcode]

/-- Row 1 of the map of 30_encoding R269. -/
def opcodeRow1 : List OpcodeCell :=
  [(.bpl, .rel), (.ora, .izy), noOpcode, noOpcode, noOpcode, (.ora, .zpx), (.asl, .zpx), noOpcode,
   (.clc, .imp), (.ora, .aby), noOpcode, noOpcode, noOpcode, (.ora, .abx), (.asl, .abx), noOpcode]

/-- Row 2 of the map of 30_encoding R269. -/
def opcodeRow2 : List OpcodeCell :=
  [(.jsr, .abs), (.and, .izx), noOpcode, noOpcode, (.bit, .zp), (.and, .zp), (.rol, .zp), noOpcode,
   (.plp, .imp), (.and, .imm), (.rol, .acc), noOpcode, (.bit, .abs), (.and, .abs), (.rol, .abs), noOpcode]

/-- Row 3 of the map of 30_encoding R269. -/
def opcodeRow3 : List OpcodeCell :=
  [(.bmi, .rel), (.and, .izy), noOpcode, noOpcode, noOpcode, (.and, .zpx), (.rol, .zpx), noOpcode,
   (.sec, .imp), (.and, .aby), noOpcode, noOpcode, noOpcode, (.and, .abx), (.rol, .abx), noOpcode]

/-- Row 4 of the map of 30_encoding R269. -/
def opcodeRow4 : List OpcodeCell :=
  [(.rti, .imp), (.eor, .izx), noOpcode, noOpcode, noOpcode, (.eor, .zp), (.lsr, .zp), noOpcode,
   (.pha, .imp), (.eor, .imm), (.lsr, .acc), noOpcode, (.jmp, .abs), (.eor, .abs), (.lsr, .abs), noOpcode]

/-- Row 5 of the map of 30_encoding R269. -/
def opcodeRow5 : List OpcodeCell :=
  [(.bvc, .rel), (.eor, .izy), noOpcode, noOpcode, noOpcode, (.eor, .zpx), (.lsr, .zpx), noOpcode,
   (.cli, .imp), (.eor, .aby), noOpcode, noOpcode, noOpcode, (.eor, .abx), (.lsr, .abx), noOpcode]

/-- Row 6 of the map of 30_encoding R269. -/
def opcodeRow6 : List OpcodeCell :=
  [(.rts, .imp), (.adc, .izx), noOpcode, noOpcode, noOpcode, (.adc, .zp), (.ror, .zp), noOpcode,
   (.pla, .imp), (.adc, .imm), (.ror, .acc), noOpcode, (.jmp, .ind), (.adc, .abs), (.ror, .abs), noOpcode]

/-- Row 7 of the map of 30_encoding R269. -/
def opcodeRow7 : List OpcodeCell :=
  [(.bvs, .rel), (.adc, .izy), noOpcode, noOpcode, noOpcode, (.adc, .zpx), (.ror, .zpx), noOpcode,
   (.sei, .imp), (.adc, .aby), noOpcode, noOpcode, noOpcode, (.adc, .abx), (.ror, .abx), noOpcode]

/-- Row 8 of the map of 30_encoding R269. -/
def opcodeRow8 : List OpcodeCell :=
  [noOpcode, (.sta, .izx), noOpcode, noOpcode, (.sty, .zp), (.sta, .zp), (.stx, .zp), noOpcode,
   (.dey, .imp), noOpcode, (.txa, .imp), noOpcode, (.sty, .abs), (.sta, .abs), (.stx, .abs), noOpcode]

/-- Row 9 of the map of 30_encoding R269. -/
def opcodeRow9 : List OpcodeCell :=
  [(.bcc, .rel), (.sta, .izy), noOpcode, noOpcode, (.sty, .zpx), (.sta, .zpx), (.stx, .zpy), noOpcode,
   (.tya, .imp), (.sta, .aby), (.txs, .imp), noOpcode, noOpcode, (.sta, .abx), noOpcode, noOpcode]

/-- Row A of the map of 30_encoding R269. -/
def opcodeRowA : List OpcodeCell :=
  [(.ldy, .imm), (.lda, .izx), (.ldx, .imm), noOpcode, (.ldy, .zp), (.lda, .zp), (.ldx, .zp), noOpcode,
   (.tay, .imp), (.lda, .imm), (.tax, .imp), noOpcode, (.ldy, .abs), (.lda, .abs), (.ldx, .abs), noOpcode]

/-- Row B of the map of 30_encoding R269. -/
def opcodeRowB : List OpcodeCell :=
  [(.bcs, .rel), (.lda, .izy), noOpcode, noOpcode, (.ldy, .zpx), (.lda, .zpx), (.ldx, .zpy), noOpcode,
   (.clv, .imp), (.lda, .aby), (.tsx, .imp), noOpcode, (.ldy, .abx), (.lda, .abx), (.ldx, .aby), noOpcode]

/-- Row C of the map of 30_encoding R269. -/
def opcodeRowC : List OpcodeCell :=
  [(.cpy, .imm), (.cmp, .izx), noOpcode, noOpcode, (.cpy, .zp), (.cmp, .zp), (.dec, .zp), noOpcode,
   (.iny, .imp), (.cmp, .imm), (.dex, .imp), noOpcode, (.cpy, .abs), (.cmp, .abs), (.dec, .abs), noOpcode]

/-- Row D of the map of 30_encoding R269. -/
def opcodeRowD : List OpcodeCell :=
  [(.bne, .rel), (.cmp, .izy), noOpcode, noOpcode, noOpcode, (.cmp, .zpx), (.dec, .zpx), noOpcode,
   (.cld, .imp), (.cmp, .aby), noOpcode, noOpcode, noOpcode, (.cmp, .abx), (.dec, .abx), noOpcode]

/-- Row E of the map of 30_encoding R269. -/
def opcodeRowE : List OpcodeCell :=
  [(.cpx, .imm), (.sbc, .izx), noOpcode, noOpcode, (.cpx, .zp), (.sbc, .zp), (.inc, .zp), noOpcode,
   (.inx, .imp), (.sbc, .imm), (.nop, .imp), noOpcode, (.cpx, .abs), (.sbc, .abs), (.inc, .abs), noOpcode]

/-- Row F of the map of 30_encoding R269. -/
def opcodeRowF : List OpcodeCell :=
  [(.beq, .rel), (.sbc, .izy), noOpcode, noOpcode, noOpcode, (.sbc, .zpx), (.inc, .zpx), noOpcode,
   (.sed, .imp), (.sbc, .aby), noOpcode, noOpcode, noOpcode, (.sbc, .abx), (.inc, .abx), noOpcode]

/-- The sixteen rows of the map (30_encoding R269). -/
def opcodeRows : List (List OpcodeCell) :=
  [opcodeRow0, opcodeRow1, opcodeRow2, opcodeRow3, opcodeRow4, opcodeRow5, opcodeRow6, opcodeRow7] ++
  [opcodeRow8, opcodeRow9, opcodeRowA, opcodeRowB, opcodeRowC, opcodeRowD, opcodeRowE, opcodeRowF]

/-- `Table[b]`: cell (hi, lo) of the map is opcode `{hi, lo}` (30_encoding R269). -/
def opcodeEntry (b : Byte) : OpcodeCell :=
  ((opcodeRows.getD (b.toNat / 16) []).getD (b.toNat % 16) noOpcode)

/-- The instruction that a pair (kind, mode) and an operand stand for; none for a pair that occurs in no row of
30_encoding R269, which is the dispatch miss of R273. -/
def Instr.assemble (k : Kind) (m : Mode) (op : Word) : Option Instr :=
  match k with
  | .adc => match m with
      | .imm => some (.adcImm (lo op)) | .zp => some (.adcZp (lo op)) | .zpx => some (.adcZpx (lo op))
      | .abs => some (.adcAbs op) | .abx => some (.adcAbx op) | .aby => some (.adcAby op)
      | .izx => some (.adcIzx (lo op)) | .izy => some (.adcIzy (lo op))
      | _ => none
  | .and => match m with
      | .imm => some (.andImm (lo op)) | .zp => some (.andZp (lo op)) | .zpx => some (.andZpx (lo op))
      | .abs => some (.andAbs op) | .abx => some (.andAbx op) | .aby => some (.andAby op)
      | .izx => some (.andIzx (lo op)) | .izy => some (.andIzy (lo op))
      | _ => none
  | .asl => match m with
      | .acc => some .aslAcc | .zp => some (.aslZp (lo op)) | .zpx => some (.aslZpx (lo op))
      | .abs => some (.aslAbs op) | .abx => some (.aslAbx op)
      | _ => none
  | .bcc => match m with
      | .rel => some (.bcc (lo op))
      | _ => none
  | .bcs => match m with
      | .rel => some (.bcs (lo op))
      | _ => none
  | .beq => match m with
      | .rel => some (.beq (lo op))
      | _ => none
  | .bit => match m with
      | .zp => some (.bitZp (lo op)) | .abs => some (.bitAbs op)
      | _ => none
  | .bmi => match m with
      | .rel => some (.bmi (lo op))
      | _ => none
  | .bne => match m with
      | .rel => some (.bne (lo op))
      | _ => none
  | .bpl => match m with
      | .rel => some (.bpl (lo op))
      | _ => none
  | .brk => match m with
      | .imp => some .brk
      | _ => none
  | .bvc => match m with
      | .rel => some (.bvc (lo op))
      | _ => none
  | .bvs => match m with
      | .rel => some (.bvs (lo op))
      | _ => none
  | .clc => match m with
      | .imp => some .clc
      | _ => none
  | .cld => match m with
      | .imp => some .cld
      | _ => none
  | .cli => match m with
      | .imp => some .cli
      | _ => none
  | .clv => match m with
      | .imp => some .clv
      | _ => none
  | .cmp => match m with
      | .imm => some (.cmpImm (lo op)) | .zp => some (.cmpZp (lo op)) | .zpx => some (.cmpZpx (lo op))
      | .abs => some (.cmpAbs op) | .abx => some (.cmpAbx op) | .aby => some (.cmpAby op)
      | .izx => some (.cmpIzx (lo op)) | .izy => some (.cmpIzy (lo op))
      | _ => none
  | .cpx => match m with
      | .imm => some (.cpxImm (lo op)) | .zp => some (.cpxZp (lo op)) | .abs => some (.cpxAbs op)
      | _ => none
  | .cpy => match m with
      | .imm => some (.cpyImm (lo op)) | .zp => some (.cpyZp (lo op)) | .abs => some (.cpyAbs op)
      | _ => none
  | .dec => match m with
      | .zp => some (.decZp (lo op)) | .zpx => some (.decZpx (lo op)) | .abs => some (.decAbs op)
      | .abx => some (.decAbx op)
      | _ => none
  | .dex => match m with
      | .imp => some .dex
      | _ => none
  | .dey => match m with
      | .imp => some .dey
      | _ => none
  | .eor => match m with
      | .imm => some (.eorImm (lo op)) | .zp => some (.eorZp (lo op)) | .zpx => some (.eorZpx (lo op))
      | .abs => some (.eorAbs op) | .abx => some (.eorAbx op) | .aby => some (.eorAby op)
      | .izx => some (.eorIzx (lo op)) | .izy => some (.eorIzy (lo op))
      | _ => none
  | .inc => match m with
      | .zp => some (.incZp (lo op)) | .zpx => some (.incZpx (lo op)) | .abs => some (.incAbs op)
      | .abx => some (.incAbx op)
      | _ => none
  | .inx => match m with
      | .imp => some .inx
      | _ => none
  | .iny => match m with
      | .imp => some .iny
      | _ => none
  | .jmp => match m with
      | .abs => some (.jmpAbs op) | .ind => some (.jmpInd op)
      | _ => none
  | .jsr => match m with
      | .abs => some (.jsr op)
      | _ => none
  | .lda => match m with
      | .imm => some (.ldaImm (lo op)) | .zp => some (.ldaZp (lo op)) | .zpx => some (.ldaZpx (lo op))
      | .abs => some (.ldaAbs op) | .abx => some (.ldaAbx op) | .aby => some (.ldaAby op)
      | .izx => some (.ldaIzx (lo op)) | .izy => some (.ldaIzy (lo op))
      | _ => none
  | .ldx => match m with
      | .imm => some (.ldxImm (lo op)) | .zp => some (.ldxZp (lo op)) | .zpy => some (.ldxZpy (lo op))
      | .abs => some (.ldxAbs op) | .aby => some (.ldxAby op)
      | _ => none
  | .ldy => match m with
      | .imm => some (.ldyImm (lo op)) | .zp => some (.ldyZp (lo op)) | .zpx => some (.ldyZpx (lo op))
      | .abs => some (.ldyAbs op) | .abx => some (.ldyAbx op)
      | _ => none
  | .lsr => match m with
      | .acc => some .lsrAcc | .zp => some (.lsrZp (lo op)) | .zpx => some (.lsrZpx (lo op))
      | .abs => some (.lsrAbs op) | .abx => some (.lsrAbx op)
      | _ => none
  | .nop => match m with
      | .imp => some .nop
      | _ => none
  | .ora => match m with
      | .imm => some (.oraImm (lo op)) | .zp => some (.oraZp (lo op)) | .zpx => some (.oraZpx (lo op))
      | .abs => some (.oraAbs op) | .abx => some (.oraAbx op) | .aby => some (.oraAby op)
      | .izx => some (.oraIzx (lo op)) | .izy => some (.oraIzy (lo op))
      | _ => none
  | .pha => match m with
      | .imp => some .pha
      | _ => none
  | .php => match m with
      | .imp => some .php
      | _ => none
  | .pla => match m with
      | .imp => some .pla
      | _ => none
  | .plp => match m with
      | .imp => some .plp
      | _ => none
  | .rol => match m with
      | .acc => some .rolAcc | .zp => some (.rolZp (lo op)) | .zpx => some (.rolZpx (lo op))
      | .abs => some (.rolAbs op) | .abx => some (.rolAbx op)
      | _ => none
  | .ror => match m with
      | .acc => some .rorAcc | .zp => some (.rorZp (lo op)) | .zpx => some (.rorZpx (lo op))
      | .abs => some (.rorAbs op) | .abx => some (.rorAbx op)
      | _ => none
  | .rti => match m with
      | .imp => some .rti
      | _ => none
  | .rts => match m with
      | .imp => some .rts
      | _ => none
  | .sbc => match m with
      | .imm => some (.sbcImm (lo op)) | .zp => some (.sbcZp (lo op)) | .zpx => some (.sbcZpx (lo op))
      | .abs => some (.sbcAbs op) | .abx => some (.sbcAbx op) | .aby => some (.sbcAby op)
      | .izx => some (.sbcIzx (lo op)) | .izy => some (.sbcIzy (lo op))
      | _ => none
  | .sec => match m with
      | .imp => some .sec
      | _ => none
  | .sed => match m with
      | .imp => some .sed
      | _ => none
  | .sei => match m with
      | .imp => some .sei
      | _ => none
  | .sta => match m with
      | .zp => some (.staZp (lo op)) | .zpx => some (.staZpx (lo op)) | .abs => some (.staAbs op)
      | .abx => some (.staAbx op) | .aby => some (.staAby op) | .izx => some (.staIzx (lo op))
      | .izy => some (.staIzy (lo op))
      | _ => none
  | .stx => match m with
      | .zp => some (.stxZp (lo op)) | .zpy => some (.stxZpy (lo op)) | .abs => some (.stxAbs op)
      | _ => none
  | .sty => match m with
      | .zp => some (.styZp (lo op)) | .zpx => some (.styZpx (lo op)) | .abs => some (.styAbs op)
      | _ => none
  | .tax => match m with
      | .imp => some .tax
      | _ => none
  | .tay => match m with
      | .imp => some .tay
      | _ => none
  | .tsx => match m with
      | .imp => some .tsx
      | _ => none
  | .txa => match m with
      | .imp => some .txa
      | _ => none
  | .txs => match m with
      | .imp => some .txs
      | _ => none
  | .tya => match m with
      | .imp => some .tya
      | _ => none
  | .undefined => none

/-- The operation kind of an instruction (30_encoding R269). -/
def Instr.kind : Instr → Kind
  | .adcImm _ | .adcZp _ | .adcZpx _ | .adcAbs _ | .adcAbx _ | .adcAby _ | .adcIzx _ | .adcIzy _ => .adc
  | .andImm _ | .andZp _ | .andZpx _ | .andAbs _ | .andAbx _ | .andAby _ | .andIzx _ | .andIzy _ => .and
  | .aslAcc | .aslZp _ | .aslZpx _ | .aslAbs _ | .aslAbx _ => .asl
  | .bcc _ => .bcc
  | .bcs _ => .bcs
  | .beq _ => .beq
  | .bitZp _ | .bitAbs _ => .bit
  | .bmi _ => .bmi
  | .bne _ => .bne
  | .bpl _ => .bpl
  | .brk => .brk
  | .bvc _ => .bvc
  | .bvs _ => .bvs
  | .clc => .clc
  | .cld => .cld
  | .cli => .cli
  | .clv => .clv
  | .cmpImm _ | .cmpZp _ | .cmpZpx _ | .cmpAbs _ | .cmpAbx _ | .cmpAby _ | .cmpIzx _ | .cmpIzy _ => .cmp
  | .cpxImm _ | .cpxZp _ | .cpxAbs _ => .cpx
  | .cpyImm _ | .cpyZp _ | .cpyAbs _ => .cpy
  | .decZp _ | .decZpx _ | .decAbs _ | .decAbx _ => .dec
  | .dex => .dex
  | .dey => .dey
  | .eorImm _ | .eorZp _ | .eorZpx _ | .eorAbs _ | .eorAbx _ | .eorAby _ | .eorIzx _ | .eorIzy _ => .eor
  | .incZp _ | .incZpx _ | .incAbs _ | .incAbx _ => .inc
  | .inx => .inx
  | .iny => .iny
  | .jmpAbs _ | .jmpInd _ => .jmp
  | .jsr _ => .jsr
  | .ldaImm _ | .ldaZp _ | .ldaZpx _ | .ldaAbs _ | .ldaAbx _ | .ldaAby _ | .ldaIzx _ | .ldaIzy _ => .lda
  | .ldxImm _ | .ldxZp _ | .ldxZpy _ | .ldxAbs _ | .ldxAby _ => .ldx
  | .ldyImm _ | .ldyZp _ | .ldyZpx _ | .ldyAbs _ | .ldyAbx _ => .ldy
  | .lsrAcc | .lsrZp _ | .lsrZpx _ | .lsrAbs _ | .lsrAbx _ => .lsr
  | .nop => .nop
  | .oraImm _ | .oraZp _ | .oraZpx _ | .oraAbs _ | .oraAbx _ | .oraAby _ | .oraIzx _ | .oraIzy _ => .ora
  | .pha => .pha
  | .php => .php
  | .pla => .pla
  | .plp => .plp
  | .rolAcc | .rolZp _ | .rolZpx _ | .rolAbs _ | .rolAbx _ => .rol
  | .rorAcc | .rorZp _ | .rorZpx _ | .rorAbs _ | .rorAbx _ => .ror
  | .rti => .rti
  | .rts => .rts
  | .sbcImm _ | .sbcZp _ | .sbcZpx _ | .sbcAbs _ | .sbcAbx _ | .sbcAby _ | .sbcIzx _ | .sbcIzy _ => .sbc
  | .sec => .sec
  | .sed => .sed
  | .sei => .sei
  | .staZp _ | .staZpx _ | .staAbs _ | .staAbx _ | .staAby _ | .staIzx _ | .staIzy _ => .sta
  | .stxZp _ | .stxZpy _ | .stxAbs _ => .stx
  | .styZp _ | .styZpx _ | .styAbs _ => .sty
  | .tax => .tax
  | .tay => .tay
  | .tsx => .tsx
  | .txa => .txa
  | .txs => .txs
  | .tya => .tya

/-- The addressing mode of an instruction (30_encoding R269). -/
def Instr.mode : Instr → Mode
  | .brk | .clc | .cld | .cli | .clv | .dex | .dey | .inx
  | .iny | .nop | .pha | .php | .pla | .plp | .rti | .rts
  | .sec | .sed | .sei | .tax | .tay | .tsx | .txa | .txs
  | .tya => .imp
  | .aslAcc | .lsrAcc | .rolAcc | .rorAcc => .acc
  | .adcImm _ | .andImm _ | .cmpImm _ | .cpxImm _ | .cpyImm _ | .eorImm _ | .ldaImm _ | .ldxImm _
  | .ldyImm _ | .oraImm _ | .sbcImm _ => .imm
  | .adcZp _ | .andZp _ | .aslZp _ | .bitZp _ | .cmpZp _ | .cpxZp _ | .cpyZp _ | .decZp _
  | .eorZp _ | .incZp _ | .ldaZp _ | .ldxZp _ | .ldyZp _ | .lsrZp _ | .oraZp _ | .rolZp _
  | .rorZp _ | .sbcZp _ | .staZp _ | .stxZp _ | .styZp _ => .zp
  | .adcZpx _ | .andZpx _ | .aslZpx _ | .cmpZpx _ | .decZpx _ | .eorZpx _ | .incZpx _ | .ldaZpx _
  | .ldyZpx _ | .lsrZpx _ | .oraZpx _ | .rolZpx _ | .rorZpx _ | .sbcZpx _ | .staZpx _ | .styZpx _ => .zpx
  | .ldxZpy _ | .stxZpy _ => .zpy
  | .adcAbs _ | .andAbs _ | .aslAbs _ | .bitAbs _ | .cmpAbs _ | .cpxAbs _ | .cpyAbs _ | .decAbs _
  | .eorAbs _ | .incAbs _ | .jmpAbs _ | .jsr _ | .ldaAbs _ | .ldxAbs _ | .ldyAbs _ | .lsrAbs _
  | .oraAbs _ | .rolAbs _ | .rorAbs _ | .sbcAbs _ | .staAbs _ | .stxAbs _ | .styAbs _ => .abs
  | .adcAbx _ | .andAbx _ | .aslAbx _ | .cmpAbx _ | .decAbx _ | .eorAbx _ | .incAbx _ | .ldaAbx _
  | .ldyAbx _ | .lsrAbx _ | .oraAbx _ | .rolAbx _ | .rorAbx _ | .sbcAbx _ | .staAbx _ => .abx
  | .adcAby _ | .andAby _ | .cmpAby _ | .eorAby _ | .ldaAby _ | .ldxAby _ | .oraAby _ | .sbcAby _
  | .staAby _ => .aby
  | .jmpInd _ => .ind
  | .adcIzx _ | .andIzx _ | .cmpIzx _ | .eorIzx _ | .ldaIzx _ | .oraIzx _ | .sbcIzx _ | .staIzx _ => .izx
  | .adcIzy _ | .andIzy _ | .cmpIzy _ | .eorIzy _ | .ldaIzy _ | .oraIzy _ | .sbcIzy _ | .staIzy _ => .izy
  | .bcc _ | .bcs _ | .beq _ | .bmi _ | .bne _ | .bpl _ | .bvc _ | .bvs _ => .rel

/-- The operand field of an instruction: 0, the operand byte zero-extended, or the operand word (30_encoding R253). -/
def Instr.operand : Instr → Word
  | .aslAcc | .brk | .clc | .cld | .cli | .clv | .dex | .dey
  | .inx | .iny | .lsrAcc | .nop | .pha | .php | .pla | .plp
  | .rolAcc | .rorAcc | .rti | .rts | .sec | .sed | .sei | .tax
  | .tay | .tsx | .txa | .txs | .tya => 0
  | .adcImm op | .adcZp op | .adcZpx op | .adcIzx op | .adcIzy op | .andImm op | .andZp op | .andZpx op
  | .andIzx op | .andIzy op | .aslZp op | .aslZpx op | .bcc op | .bcs op | .beq op | .bitZp op
  | .bmi op | .bne op | .bpl op | .bvc op | .bvs op | .cmpImm op | .cmpZp op | .cmpZpx op
  | .cmpIzx op | .cmpIzy op | .cpxImm op | .cpxZp op | .cpyImm op | .cpyZp op | .decZp op | .decZpx op
  | .eorImm op | .eorZp op | .eorZpx op | .eorIzx op | .eorIzy op | .incZp op | .incZpx op | .ldaImm op
  | .ldaZp op | .ldaZpx op | .ldaIzx op | .ldaIzy op | .ldxImm op | .ldxZp op | .ldxZpy op | .ldyImm op
  | .ldyZp op | .ldyZpx op | .lsrZp op | .lsrZpx op | .oraImm op | .oraZp op | .oraZpx op | .oraIzx op
  | .oraIzy op | .rolZp op | .rolZpx op | .rorZp op | .rorZpx op | .sbcImm op | .sbcZp op | .sbcZpx op
  | .sbcIzx op | .sbcIzy op | .staZp op | .staZpx op | .staIzx op | .staIzy op | .stxZp op | .stxZpy op
  | .styZp op | .styZpx op => zext16 op
  | .adcAbs op | .adcAbx op | .adcAby op | .andAbs op | .andAbx op | .andAby op | .aslAbs op | .aslAbx op
  | .bitAbs op | .cmpAbs op | .cmpAbx op | .cmpAby op | .cpxAbs op | .cpyAbs op | .decAbs op | .decAbx op
  | .eorAbs op | .eorAbx op | .eorAby op | .incAbs op | .incAbx op | .jmpAbs op | .jmpInd op | .jsr op
  | .ldaAbs op | .ldaAbx op | .ldaAby op | .ldxAbs op | .ldxAby op | .ldyAbs op | .ldyAbx op | .lsrAbs op
  | .lsrAbx op | .oraAbs op | .oraAbx op | .oraAby op | .rolAbs op | .rolAbx op | .rorAbs op | .rorAbx op
  | .sbcAbs op | .sbcAbx op | .sbcAby op | .staAbs op | .staAbx op | .staAby op | .stxAbs op | .styAbs op => op

/-- The opcode byte of an instruction, from the per-mnemonic table of 30_encoding R269. -/
def Instr.opcode : Instr → Byte
  | .adcImm _ => 0x69 | .adcZp _ => 0x65 | .adcZpx _ => 0x75 | .adcAbs _ => 0x6D | .adcAbx _ => 0x7D
  | .adcAby _ => 0x79 | .adcIzx _ => 0x61 | .adcIzy _ => 0x71
  | .andImm _ => 0x29 | .andZp _ => 0x25 | .andZpx _ => 0x35 | .andAbs _ => 0x2D | .andAbx _ => 0x3D
  | .andAby _ => 0x39 | .andIzx _ => 0x21 | .andIzy _ => 0x31
  | .aslAcc => 0x0A | .aslZp _ => 0x06 | .aslZpx _ => 0x16 | .aslAbs _ => 0x0E | .aslAbx _ => 0x1E
  | .bcc _ => 0x90
  | .bcs _ => 0xB0
  | .beq _ => 0xF0
  | .bitZp _ => 0x24 | .bitAbs _ => 0x2C
  | .bmi _ => 0x30
  | .bne _ => 0xD0
  | .bpl _ => 0x10
  | .brk => 0x00
  | .bvc _ => 0x50
  | .bvs _ => 0x70
  | .clc => 0x18
  | .cld => 0xD8
  | .cli => 0x58
  | .clv => 0xB8
  | .cmpImm _ => 0xC9 | .cmpZp _ => 0xC5 | .cmpZpx _ => 0xD5 | .cmpAbs _ => 0xCD | .cmpAbx _ => 0xDD
  | .cmpAby _ => 0xD9 | .cmpIzx _ => 0xC1 | .cmpIzy _ => 0xD1
  | .cpxImm _ => 0xE0 | .cpxZp _ => 0xE4 | .cpxAbs _ => 0xEC
  | .cpyImm _ => 0xC0 | .cpyZp _ => 0xC4 | .cpyAbs _ => 0xCC
  | .decZp _ => 0xC6 | .decZpx _ => 0xD6 | .decAbs _ => 0xCE | .decAbx _ => 0xDE
  | .dex => 0xCA
  | .dey => 0x88
  | .eorImm _ => 0x49 | .eorZp _ => 0x45 | .eorZpx _ => 0x55 | .eorAbs _ => 0x4D | .eorAbx _ => 0x5D
  | .eorAby _ => 0x59 | .eorIzx _ => 0x41 | .eorIzy _ => 0x51
  | .incZp _ => 0xE6 | .incZpx _ => 0xF6 | .incAbs _ => 0xEE | .incAbx _ => 0xFE
  | .inx => 0xE8
  | .iny => 0xC8
  | .jmpAbs _ => 0x4C | .jmpInd _ => 0x6C
  | .jsr _ => 0x20
  | .ldaImm _ => 0xA9 | .ldaZp _ => 0xA5 | .ldaZpx _ => 0xB5 | .ldaAbs _ => 0xAD | .ldaAbx _ => 0xBD
  | .ldaAby _ => 0xB9 | .ldaIzx _ => 0xA1 | .ldaIzy _ => 0xB1
  | .ldxImm _ => 0xA2 | .ldxZp _ => 0xA6 | .ldxZpy _ => 0xB6 | .ldxAbs _ => 0xAE | .ldxAby _ => 0xBE
  | .ldyImm _ => 0xA0 | .ldyZp _ => 0xA4 | .ldyZpx _ => 0xB4 | .ldyAbs _ => 0xAC | .ldyAbx _ => 0xBC
  | .lsrAcc => 0x4A | .lsrZp _ => 0x46 | .lsrZpx _ => 0x56 | .lsrAbs _ => 0x4E | .lsrAbx _ => 0x5E
  | .nop => 0xEA
  | .oraImm _ => 0x09 | .oraZp _ => 0x05 | .oraZpx _ => 0x15 | .oraAbs _ => 0x0D | .oraAbx _ => 0x1D
  | .oraAby _ => 0x19 | .oraIzx _ => 0x01 | .oraIzy _ => 0x11
  | .pha => 0x48
  | .php => 0x08
  | .pla => 0x68
  | .plp => 0x28
  | .rolAcc => 0x2A | .rolZp _ => 0x26 | .rolZpx _ => 0x36 | .rolAbs _ => 0x2E | .rolAbx _ => 0x3E
  | .rorAcc => 0x6A | .rorZp _ => 0x66 | .rorZpx _ => 0x76 | .rorAbs _ => 0x6E | .rorAbx _ => 0x7E
  | .rti => 0x40
  | .rts => 0x60
  | .sbcImm _ => 0xE9 | .sbcZp _ => 0xE5 | .sbcZpx _ => 0xF5 | .sbcAbs _ => 0xED | .sbcAbx _ => 0xFD
  | .sbcAby _ => 0xF9 | .sbcIzx _ => 0xE1 | .sbcIzy _ => 0xF1
  | .sec => 0x38
  | .sed => 0xF8
  | .sei => 0x78
  | .staZp _ => 0x85 | .staZpx _ => 0x95 | .staAbs _ => 0x8D | .staAbx _ => 0x9D | .staAby _ => 0x99
  | .staIzx _ => 0x81 | .staIzy _ => 0x91
  | .stxZp _ => 0x86 | .stxZpy _ => 0x96 | .stxAbs _ => 0x8E
  | .styZp _ => 0x84 | .styZpx _ => 0x94 | .styAbs _ => 0x8C
  | .tax => 0xAA
  | .tay => 0xA8
  | .tsx => 0xBA
  | .txa => 0x8A
  | .txs => 0x9A
  | .tya => 0x98

/-- `operand` as `Decode` assembles it from the bytes after the opcode (30_encoding R253). -/
def assembleOperand (len : Nat) (b1 b2 : Byte) : Word :=
  if len = 3 then mkWord b2 b1 else if len = 2 then zext16 b1 else 0

/-- The micro-op `Decode` builds from the bytes at `a` (30_encoding R270); bytes past its length do not matter. -/
def microOpOf (a : Word) (b0 b1 b2 : Byte) : MicroOp :=
  { addr := a, opcode := b0, mode := (opcodeEntry b0).2, kind := (opcodeEntry b0).1,
    operand := assembleOperand (opcodeEntry b0).2.length b1 b2, len := (opcodeEntry b0).2.length }

/-- The micro-op that stands for an instruction at address `a`. -/
def Instr.microOp (i : Instr) (a : Word) : MicroOp :=
  { addr := a, opcode := i.opcode, mode := i.mode, kind := i.kind, operand := i.operand, len := i.mode.length }

/-- The instruction a micro-op dispatches to (30_encoding R273). -/
def MicroOp.instr (m : MicroOp) : Option Instr := Instr.assemble m.kind m.mode m.operand

/-- Reads one instruction from the front of a list of bytes and gives the bytes after it (30_encoding R250, R270). -/
def decode (bytes : List Byte) : Except DecodeError (Instr × List Byte) :=
  match bytes with
  | [] => .error .truncated
  | b0 :: rest =>
    if rest.length + 1 < (opcodeEntry b0).2.length then
      .error .truncated
    else
      match (microOpOf 0 b0 (rest.getD 0 0) (rest.getD 1 0)).instr with
      | none => .error (.undefinedOpcode b0)
      | some i => .ok (i, rest.drop ((opcodeEntry b0).2.length - 1))

/-- The operand bytes of an instruction, low byte first (30_encoding R250, R253). -/
def Instr.operandBytes (i : Instr) : List Byte :=
  if i.mode.length = 3 then [lo i.operand, hi i.operand]
  else if i.mode.length = 2 then [lo i.operand] else []

/-- The bytes of an instruction: formats F1, F2 and F3 of 30_encoding R250. -/
def encode (i : Instr) : List Byte := i.opcode :: i.operandBytes

/-- Byte `k` of an instruction whose bits, numbered as spec/opcode_table.json numbers them, are `w`: the first byte is
bits 7..0, the next bits 15..8. -/
def tableByte (w k : Nat) : Byte := BitVec.ofNat 8 (w / 256 ^ k)

/-- What `decode` reads from an instruction given by the table's numbering, every bit above `nbits` being 0. -/
def decodeTableWord (nbits w : Nat) : Option Instr :=
  match decode [tableByte (w % 2 ^ nbits) 0, tableByte (w % 2 ^ nbits) 1, tableByte (w % 2 ^ nbits) 2] with
  | .ok (i, _) => some i
  | .error _ => none

end Sys2Proof
end

