-- ==== Sys2Proof/Machine/Flags.lean ====
section
/-! DEFINITION. The status byte's flags (10_state R53, R54) and every flag computation of the instruction rules
(41_arith_logic_shift). -/

namespace Sys2Proof.Machine

/-- Flag C, bit 0 of P (10_state R53). -/
def flagC (p : Byte) : Bool := p.getLsbD 0
/-- Flag Z, bit 1 of P. -/
def flagZ (p : Byte) : Bool := p.getLsbD 1
/-- Flag I, bit 2 of P. -/
def flagI (p : Byte) : Bool := p.getLsbD 2
/-- Flag D, bit 3 of P. -/
def flagD (p : Byte) : Bool := p.getLsbD 3
/-- Bit B, bit 4 of P. -/
def flagB (p : Byte) : Bool := p.getLsbD 4
/-- Bit U, bit 5 of P. -/
def flagU (p : Byte) : Bool := p.getLsbD 5
/-- Flag V, bit 6 of P. -/
def flagV (p : Byte) : Bool := p.getLsbD 6
/-- Flag N, bit 7 of P. -/
def flagN (p : Byte) : Bool := p.getLsbD 7

/-- Writes one bit of P. -/
def setBit (p : Byte) (i : Nat) (b : Bool) : Byte := setField p i (BitVec.ofBool b)

/-- `P.C <- b`. -/
def setC (p : Byte) (b : Bool) : Byte := setBit p 0 b
/-- `P.Z <- b`. -/
def setZ (p : Byte) (b : Bool) : Byte := setBit p 1 b
/-- `P.I <- b`. -/
def setI (p : Byte) (b : Bool) : Byte := setBit p 2 b
/-- `P.D <- b`. -/
def setD (p : Byte) (b : Bool) : Byte := setBit p 3 b
/-- `P.V <- b`. -/
def setV (p : Byte) (b : Bool) : Byte := setBit p 6 b
/-- `P.N <- b`. -/
def setN (p : Byte) (b : Bool) : Byte := setBit p 7 b

/-- `setNZ(r)`: Z from r = 0, N from bit 7 of r (00_scope R14). -/
def setNZ (p : Byte) (r : Byte) : Byte := setN (setZ p (r = 0)) (r.getLsbD 7)

/-- P as PLP and RTI restore it: `(v & $CF) | $20`, B = 0 and U = 1 (10_state R54). -/
def restoredP (v : Byte) : Byte := (v &&& 0xCF) ||| 0x20

/-- P as PHP and BRK push it: `P | $30`, B = 1 and U = 1 (10_state R54). -/
def pushedBySoftware (p : Byte) : Byte := p ||| 0x30

/-- P as an interrupt entry pushes it: `(P & $CF) | $20`, B = 0 and U = 1 (60_exceptions R912, R913). -/
def pushedByInterrupt (p : Byte) : Byte := (p &&& 0xCF) ||| 0x20

/-- What an operation on bytes gives: the result and the new P. -/
structure AluOut where
  result : Byte
  p : Byte
  deriving DecidableEq, Repr

/-- The 9-bit sum of ADC (41_arith_logic_shift R450). -/
def adcSum (a m : Byte) (c : Bool) : BitVec 9 := a.setWidth 9 + m.setWidth 9 + (BitVec.ofBool c).setWidth 9

/-- `c7`, the carry into bit 7 of ADC (41_arith_logic_shift R450). -/
def adcCarryIn7 (a m : Byte) (c : Bool) : Bool :=
  ((a &&& 0x7F) + (m &&& 0x7F) + (BitVec.ofBool c).setWidth 8).getLsbD 7

/-- ADC's result and flags (41_arith_logic_shift R450): C is the carry out of bit 7 and V the exclusive or of the carries
into and out of bit 7. D is not read (R469). -/
def adc (a m p : Byte) : AluOut :=
  let s := adcSum a m (flagC p)
  let r := s.setWidth 8
  { result := r, p := setNZ (setV (setC p (s.getLsbD 8)) (adcCarryIn7 a m (flagC p) ^^ s.getLsbD 8)) r }

/-- SBC is ADC of the complement (41_arith_logic_shift R451). -/
def sbc (a m p : Byte) : AluOut := adc a (~~~m) p

/-- AND (41_arith_logic_shift R452). -/
def andOp (a m p : Byte) : AluOut := { result := a &&& m, p := setNZ p (a &&& m) }

/-- ORA (41_arith_logic_shift R453). -/
def oraOp (a m p : Byte) : AluOut := { result := a ||| m, p := setNZ p (a ||| m) }

/-- EOR (41_arith_logic_shift R454). -/
def eorOp (a m p : Byte) : AluOut := { result := a ^^^ m, p := setNZ p (a ^^^ m) }

/-- P after BIT: Z from A and m, N and V from bits 7 and 6 of m (41_arith_logic_shift R455). -/
def bitFlags (a m p : Byte) : Byte := setV (setN (setZ p ((a &&& m) = 0)) (m.getLsbD 7)) (m.getLsbD 6)

/-- P after a compare of a register with m: C is the unsigned `r >= m`, Z equality, N bit 7 of the difference
(41_arith_logic_shift R456). -/
def compareFlags (r m p : Byte) : Byte := setN (setZ (setC p (m.toNat ≤ r.toNat)) (r = m)) ((r - m).getLsbD 7)

/-- INC, INX, INY: wraps modulo 256 (41_arith_logic_shift R459). -/
def incOp (m p : Byte) : AluOut := { result := m + 1, p := setNZ p (m + 1) }

/-- DEC, DEX, DEY: wraps modulo 256 (41_arith_logic_shift R460). -/
def decOp (m p : Byte) : AluOut := { result := m - 1, p := setNZ p (m - 1) }

/-- ASL (41_arith_logic_shift R465). -/
def aslOp (m p : Byte) : AluOut := { result := m <<< 1, p := setNZ (setC p (m.getLsbD 7)) (m <<< 1) }

/-- LSR (41_arith_logic_shift R466). -/
def lsrOp (m p : Byte) : AluOut := { result := m >>> 1, p := setNZ (setC p (m.getLsbD 0)) (m >>> 1) }

/-- ROL's result: the old carry enters bit 0 (41_arith_logic_shift R467). -/
def rolResult (m : Byte) (c : Bool) : Byte := (m <<< 1) ||| (BitVec.ofBool c).setWidth 8

/-- ROL (41_arith_logic_shift R467). -/
def rolOp (m p : Byte) : AluOut :=
  { result := rolResult m (flagC p), p := setNZ (setC p (m.getLsbD 7)) (rolResult m (flagC p)) }

/-- ROR's result: the old carry enters bit 7 (41_arith_logic_shift R468). -/
def rorResult (m : Byte) (c : Bool) : Byte := ((BitVec.ofBool c).setWidth 8 <<< 7) ||| (m >>> 1)

/-- ROR (41_arith_logic_shift R468). -/
def rorOp (m p : Byte) : AluOut :=
  { result := rorResult m (flagC p), p := setNZ (setC p (m.getLsbD 0)) (rorResult m (flagC p)) }

end Sys2Proof.Machine
end

