-- ==== Sys2Proof/Machine/State.lean ====
section
/-! DEFINITION. The state of the machine as plain data (10_state), the reasons a step stops (60_exceptions R905), and the
state right after the power-on reset (70_reset_and_hazards R950). -/

namespace Sys2Proof.Machine

/-- Why a step ends in a fault (60_exceptions R905). -/
inductive Fault where
  /-- An `Undefined` micro-op executes; raised by `execute` for one of the 105 undefined opcodes (30_encoding R271).
  Safe: the 2A03 executes them, this hardware stops. -/
  | undefinedOpcode (op : Byte) (addr : Word)
  /-- A micro-op whose (kind, mode) has no row; raised by `execute` (30_encoding R273). Safe, and unreachable with a
  cache that only trace building filled. -/
  | dispatchMiss (kind : Kind) (mode : Mode)
  deriving DecidableEq, Repr

/-- Why a step gives no meaning (60_exceptions R905). -/
inductive Refusal where
  /-- An instruction that has no meaning yet; raised by a rejected arm of `exec` alone. Safe. -/
  | notModelled (mnemonic : String)
  /-- A trace build would read the instruction byte at `b` outside RAM, PRG-RAM and PRG-ROM; raised by `build`
  (31_decode_cache_and_run R304). Safe. -/
  | fetchOutsideMemory (b : Word)
  /-- A host call on a destroyed machine; raised by `stepMachine` (52_machine_and_host R806). Safe. -/
  | useAfterDestroy
  deriving DecidableEq, Repr

/-- A memory: the listed bytes by address, in the canonical form of `Memory.wf`. -/
abbrev Memory := List Host.Cell

/-- The four cartridge segments (10_state R62). -/
inductive Segment where
  | prgRom | prgRam | chrRom | chrRam
  deriving DecidableEq, Repr

/-- A bank window: a pair (segment, bank index), resolved on each access (10_state R63). The index may be negative. -/
structure Window where
  seg : Segment
  bank : Int
  deriving DecidableEq, Repr

/-- The four mirroring layouts (10_state R63, 20_memory R160). -/
inductive Mirroring where
  | singleLow | singleHigh | horizontal | vertical
  deriving DecidableEq, Repr

/-- MMC1 state (10_state R64). -/
structure Mmc1 where
  shift : BitVec 5
  count : Nat
  control : BitVec 5
  chrBank0 : BitVec 5
  chrBank1 : BitVec 5
  prgBank : BitVec 5
  deriving DecidableEq, Repr

/-- MMC3 state (10_state R64). -/
structure Mmc3 where
  bankSelect : Byte
  R : Vector Byte 8
  irqLatch : Byte
  irqCounter : Byte
  irqReload : Bool
  irqEnabled : Bool
  lastA12 : Bool
  deriving DecidableEq, Repr

/-- The mapper variant, fixed at load, with its own state (10_state R63, R64; 00_scope R3). -/
inductive Variant where
  /-- Mapper 0 (51_cartridge_mapper R720). -/
  | nrom
  /-- Mapper 1 (R721 to R723). -/
  | mmc1 (m : Mmc1)
  /-- Mapper 2 (R730). -/
  | uxrom
  /-- Mapper 3 (R731). -/
  | cnrom
  /-- Mapper 4 (R740 to R745). -/
  | mmc3 (m : Mmc3)
  /-- Mapper 7 (R732). -/
  | axrom
  deriving DecidableEq, Repr

/-- The mapper state common to every variant (10_state R63). -/
structure MapperState where
  variant : Variant
  /-- `map.prg[3]`, the window of $6000-$7FFF. -/
  prg3 : Window
  /-- `map.prg[4..7]`, the windows of $8000, $A000, $C000 and $E000. -/
  prg : Vector Window 4
  /-- `map.chr[0..7]`, the 1 KB windows of the PPU's $0000-$1FFF. -/
  chr : Vector Window 8
  mirroring : Mirroring
  deriving DecidableEq, Repr

/-- What the header fixes at load (51_cartridge_mapper R702). -/
structure CartInfo where
  /-- 16 KB units of PRG-ROM. -/
  prgCount : Nat
  /-- 8 KB units of CHR-ROM; 0 means CHR-RAM. -/
  chrCount : Nat
  battery : Bool
  headerMirroring : Mirroring
  deriving DecidableEq, Repr

/-- PPU registers and internal state (10_state R60, R61). -/
structure Ppu where
  ctrl : Byte
  mask : Byte
  vblank : Bool
  oamAddr : Byte
  v : Scroll
  t : Scroll
  x : BitVec 3
  w : Bool
  readBuffer : Byte
  line : Nat
  dot : Nat
  bgLo : BitVec 16
  bgHi : BitVec 16
  atLo : BitVec 16
  atHi : BitVec 16
  ntLatch : Byte
  atLatch : BitVec 2
  ptLoLatch : Byte
  ptHiLatch : Byte
  deriving DecidableEq, Repr

/-- The controller port (10_state R65). -/
structure Pad where
  input : Byte
  shift : Byte
  strobe : Bool
  deriving DecidableEq, Repr

/-- A call of the host on this machine (52_machine_and_host R800), `create` apart. -/
inductive HostCall where
  | runCycles (count : Int)
  | regRead (reg : Byte)
  | regWrite (reg value : Byte)
  | setInput (b : Byte)
  | syncSave
  | destroy
  deriving DecidableEq, Repr

/-- What the machine gives the host: callbacks and results (52_machine_and_host R800, R805). -/
inductive HostEvent where
  /-- `FrameReady`: the frame callback with a copy of the frame buffer (50_ppu R633). -/
  | frame (pixels : Memory)
  /-- `runCycles` returned this many cycles (52_machine_and_host R803). -/
  | ran (actual : Nat)
  /-- `regRead` returned this byte (52_machine_and_host R802). -/
  | regValue (b : Byte)
  deriving DecidableEq, Repr

/-- The host's side of the machine: what it is about to ask, and what it was given. DESIGN CHOICE, log 5. -/
structure HostPort where
  /-- The handle is not destroyed (52_machine_and_host R806). -/
  alive : Bool
  /-- The count of the `runCycles` call in progress, if one is. -/
  running : Option Nat
  /-- The calls still to be served, oldest first. -/
  calls : List HostCall
  /-- The count of the `runCycles` call the host makes when no call is listed. -/
  count : Nat
  /-- What the host was given, newest first. -/
  out : List HostEvent
  /-- The bytes of the bound save file (52_machine_and_host R820), none when no file is bound. -/
  save : Option (List Byte)
  deriving DecidableEq, Repr

/-- The whole machine: every piece of state of 10_state, and the model's own fields `draws` and `host`. -/
structure State where
  /-- The parameters of 00_scope R9; no step changes them. -/
  config : Config
  /-- Accumulator (10_state R50). -/
  a : Byte
  /-- Index register X. -/
  x : Byte
  /-- Index register Y. -/
  y : Byte
  /-- Stack pointer S. -/
  sp : Byte
  /-- Status byte P, bits N V U B D I Z C (10_state R53). -/
  p : Byte
  /-- Program counter (10_state R52). -/
  pc : Word
  /-- The decode cache, a finite map from PC to trace (10_state R57). -/
  cache : List (Word × Trace)
  /-- The cursor (10_state R57). -/
  cur : Option (Word × Nat)
  /-- CPU cycles the current `run` call has used (10_state R58). -/
  cycles : Nat
  /-- The NMI line (10_state R56). -/
  nmiLine : Bool
  /-- The mapper's IRQ line (10_state R56). -/
  irqLine : Bool
  /-- Internal RAM (10_state R59). -/
  ram : Memory
  /-- PRG-ROM. -/
  prgRom : Memory
  /-- PRG-RAM. -/
  prgRam : Memory
  /-- CHR-ROM. -/
  chrRom : Memory
  /-- CHR-RAM. -/
  chrRam : Memory
  /-- Nametable RAM; page p, offset o is address 1024 p + o. -/
  ciram : Memory
  /-- Palette RAM. -/
  palette : Memory
  /-- OAM. -/
  oam : Memory
  /-- The working frame buffer; `frame[L][X]` is address 256 L + X. -/
  frame : Memory
  /-- PPU registers and internal state. -/
  ppu : Ppu
  /-- What the header fixed at load. -/
  cart : CartInfo
  /-- Mapper state. -/
  map : MapperState
  /-- Controller port. -/
  pad : Pad
  /-- How many free values the run has drawn (00_scope R13). The model's own, log 4. -/
  draws : Nat
  /-- The host's side. The model's own, log 5. -/
  host : HostPort
  deriving DecidableEq, Repr

/-- PPU state after reset (10_state R60); `vblank` is a draw there and 0 here (DESIGN CHOICE, log 1; unsafe). -/
def Ppu.reset : Ppu :=
  { ctrl := 0, mask := 0, vblank := false, oamAddr := 0, v := 0, t := 0, x := 0, w := false, readBuffer := 0,
    line := 261, dot := 0, bgLo := 0, bgHi := 0, atLo := 0, atHi := 0, ntLatch := 0, atLatch := 0,
    ptLoLatch := 0, ptHiLatch := 0 }

/-- Controller state after reset (10_state R65). -/
def Pad.reset : Pad := { input := 0, shift := 0, strobe := false }

/-- The header fields of the blank cartridge: 32 KB of PRG-ROM, CHR-RAM, no battery. DESIGN CHOICE, log 3. -/
def CartInfo.blank : CartInfo := { prgCount := 2, chrCount := 0, battery := false, headerMirroring := .horizontal }

/-- NROM's windows after its reset on a CHR-RAM cartridge (51_cartridge_mapper R714, R720). -/
def MapperState.nromReset : MapperState :=
  { variant := .nrom, prg3 := ⟨.prgRam, 0⟩,
    prg := #v[⟨.prgRom, 0⟩, ⟨.prgRom, 1⟩, ⟨.prgRom, -2⟩, ⟨.prgRom, -1⟩],
    chr := #v[⟨.chrRam, 0⟩, ⟨.chrRam, 1⟩, ⟨.chrRam, 2⟩, ⟨.chrRam, 3⟩, ⟨.chrRam, 4⟩, ⟨.chrRam, 5⟩, ⟨.chrRam, 6⟩, ⟨.chrRam, 7⟩],
    mirroring := .horizontal }

/-- The host's side of a machine that no call has reached yet. DESIGN CHOICE, log 5. -/
def HostPort.fresh (save : Option (List Byte)) : HostPort :=
  { alive := true, running := none, calls := [], count := 1, out := [], save := save }

/-- The machine right after the power-on reset (70_reset_and_hazards R950) of the blank cartridge (log 3): S = $FD,
I = U = 1 and B = 0, PC the word at $FFFC of a blank ROM, PPU at (261, 0), both lines low, cache empty. The spec's draws
(A, X, Y, N, V, D, Z, C, `vblank`, every RAM) are 0 here (DESIGN CHOICE, log 1 and 2; unsafe); `powerOn` takes them as
arguments. -/
def State.reset : State :=
  { config := defaultConfig, a := 0, x := 0, y := 0, sp := 0xFD, p := 0x24, pc := 0, cache := [], cur := none,
    cycles := 0, nmiLine := false, irqLine := false, ram := [], prgRom := [], prgRam := [], chrRom := [], chrRam := [],
    ciram := [], palette := [], oam := [], frame := [], ppu := Ppu.reset, cart := CartInfo.blank,
    map := MapperState.nromReset, pad := Pad.reset, draws := 0, host := HostPort.fresh none }

end Sys2Proof.Machine
end

