-- ==== Sys2Proof/Machine/Memory.lean ====
section
/-! DEFINITION. Memories as canonical lists of bytes by address: what an unlisted address reads as, reading, writing, and the
canonical form. -/

namespace Sys2Proof.Machine

/-- What an address nothing has written reads as. The spec calls these bytes draws (10_state R59, D35); the model reads
$00. DESIGN CHOICE, log 2; unsafe. -/
def Memory.unlisted : Byte := 0

/-- The byte at an address. -/
def Memory.read (m : Memory) (a : Nat) : Byte :=
  match m with
  | [] => Memory.unlisted
  | (k, d) :: rest => if k = a then d else Memory.read rest a

/-- Stores a byte at an address, keeping the canonical form: a byte equal to the unlisted one removes the entry. -/
def Memory.write (m : Memory) (a : Nat) (d : Byte) : Memory :=
  match m with
  | [] => if d = Memory.unlisted then [] else [(a, d)]
  | (k, e) :: rest =>
    if a < k then (if d = Memory.unlisted then (k, e) :: rest else (a, d) :: (k, e) :: rest)
    else if a = k then (if d = Memory.unlisted then rest else (a, d) :: rest)
    else (k, e) :: Memory.write rest a d

/-- Every listed address is at least `n`, the addresses strictly rise, and no entry equals the unlisted byte. -/
def Memory.wfFrom (m : Memory) (n : Nat) : Bool :=
  match m with
  | [] => true
  | (k, d) :: rest => n ≤ k && d ≠ Memory.unlisted && Memory.wfFrom rest (k + 1)

/-- The canonical form. -/
def Memory.wf (m : Memory) : Bool := Memory.wfFrom m 0

/-- Every listed address is below `n`, the memory's size (10_state R59). -/
def Memory.within (m : Memory) (n : Nat) : Bool := m.all (fun c => c.1 < n)

/-- The memory that lists `bytes` from address `a` on. -/
def Memory.ofBytes (a : Nat) (bytes : List Byte) : Memory :=
  match bytes with
  | [] => []
  | d :: rest => if d = Memory.unlisted then Memory.ofBytes (a + 1) rest else (a, d) :: Memory.ofBytes (a + 1) rest

/-- The first `n` bytes of a memory. -/
def Memory.toBytes (m : Memory) (n : Nat) : List Byte := (List.range n).map m.read

end Sys2Proof.Machine
end

