-- ==== Sys2Proof/Machine/Registers.lean ====
section
/-! DEFINITION. The one way each field of the state is written: a setter for each field a step can change. Their laws are in
Sys2Proof/Laws/State.lean. -/

namespace Sys2Proof.Machine

/-- Writes `a`. -/
def State.setA (s : State) (v : Byte) : State := { s with a := v }

/-- Writes `x`. -/
def State.setX (s : State) (v : Byte) : State := { s with x := v }

/-- Writes `y`. -/
def State.setY (s : State) (v : Byte) : State := { s with y := v }

/-- Writes `sp`. -/
def State.setSp (s : State) (v : Byte) : State := { s with sp := v }

/-- Writes `p`. -/
def State.setP (s : State) (v : Byte) : State := { s with p := v }

/-- Writes `pc`. -/
def State.setPc (s : State) (v : Word) : State := { s with pc := v }

/-- Writes `cache`. -/
def State.setCache (s : State) (v : List (Word × Trace)) : State := { s with cache := v }

/-- Writes `cur`. -/
def State.setCur (s : State) (v : Option (Word × Nat)) : State := { s with cur := v }

/-- Writes `cycles`. -/
def State.setCycles (s : State) (v : Nat) : State := { s with cycles := v }

/-- Writes `nmiLine`. -/
def State.setNmiLine (s : State) (v : Bool) : State := { s with nmiLine := v }

/-- Writes `irqLine`. -/
def State.setIrqLine (s : State) (v : Bool) : State := { s with irqLine := v }

/-- Writes `ram`. -/
def State.setRam (s : State) (v : Memory) : State := { s with ram := v }

/-- Writes `prgRom`. -/
def State.setPrgRom (s : State) (v : Memory) : State := { s with prgRom := v }

/-- Writes `prgRam`. -/
def State.setPrgRam (s : State) (v : Memory) : State := { s with prgRam := v }

/-- Writes `chrRam`. -/
def State.setChrRam (s : State) (v : Memory) : State := { s with chrRam := v }

/-- Writes `ciram`. -/
def State.setCiram (s : State) (v : Memory) : State := { s with ciram := v }

/-- Writes `palette`. -/
def State.setPalette (s : State) (v : Memory) : State := { s with palette := v }

/-- Writes `oam`. -/
def State.setOam (s : State) (v : Memory) : State := { s with oam := v }

/-- Writes `frame`. -/
def State.setFrame (s : State) (v : Memory) : State := { s with frame := v }

/-- Writes `ppu`. -/
def State.setPpu (s : State) (v : Ppu) : State := { s with ppu := v }

/-- Writes `map`. -/
def State.setMap (s : State) (v : MapperState) : State := { s with map := v }

/-- Writes `pad`. -/
def State.setPad (s : State) (v : Pad) : State := { s with pad := v }

/-- Writes `draws`. -/
def State.setDraws (s : State) (v : Nat) : State := { s with draws := v }

/-- Writes `host`. -/
def State.setHost (s : State) (v : HostPort) : State := { s with host := v }

/-- The four 8-bit registers (10_state R50). -/
inductive Reg where
  | a | x | y | sp
  deriving DecidableEq, Repr

/-- Reads an 8-bit register. -/
def State.reg (s : State) : Reg → Byte
  | .a => s.a
  | .x => s.x
  | .y => s.y
  | .sp => s.sp

/-- Writes an 8-bit register. -/
def State.setReg (s : State) (r : Reg) (v : Byte) : State :=
  match r with
  | .a => s.setA v
  | .x => s.setX v
  | .y => s.setY v
  | .sp => s.setSp v

end Sys2Proof.Machine
end

