-- ==== Sys2Proof/Machine/Windows.lean ====
section
/-! DEFINITION. Cartridge segments, bank normalisation, window resolution and the two shared mapper services: window remap
and mirroring (10_state R62, R63; 20_memory R152, R153, R160; 51_cartridge_mapper R710, R712, R713). -/

namespace Sys2Proof.Machine

/-- The bank size of a segment: 8 KB for PRG, 1 KB for CHR (10_state R62). -/
def Segment.bankSize : Segment → Nat
  | .prgRom | .prgRam => 8192
  | .chrRom | .chrRam => 1024

/-- The bank count of a segment (10_state R62). -/
def CartInfo.bankCount (c : CartInfo) : Segment → Nat
  | .prgRom => 2 * c.prgCount
  | .prgRam => 1
  | .chrRom => 8 * c.chrCount
  | .chrRam => 8

/-- `Bank(seg, i) = ((i mod N) + N) mod N`, mod truncated toward zero (51_cartridge_mapper R710). -/
def bankIndex (n : Nat) (i : Int) : Nat := ((i.tmod n + n).tmod n).toNat

/-- The offset, inside its segment, of the byte a window names for address `a` (20_memory R152). -/
def CartInfo.windowOffset (c : CartInfo) (w : Window) (a : Nat) : Nat :=
  bankIndex (c.bankCount w.seg) w.bank * w.seg.bankSize + a % w.seg.bankSize

/-- The bytes of a segment. -/
def State.segment (s : State) : Segment → Memory
  | .prgRom => s.prgRom
  | .prgRam => s.prgRam
  | .chrRom => s.chrRom
  | .chrRam => s.chrRam

/-- A read through a window (20_memory R152). -/
def windowRead (s : State) (w : Window) (a : Nat) : Byte := (s.segment w.seg).read (s.cart.windowOffset w a)

/-- A write through a window: RAM segments store the byte, ROM segments stay as they are (20_memory R153). -/
def windowWrite (w : Window) (a : Nat) (d : Byte) (s : State) : State :=
  match w.seg with
  | .prgRam => s.setPrgRam (s.prgRam.write (s.cart.windowOffset w a) d)
  | .chrRam => s.setChrRam (s.chrRam.write (s.cart.windowOffset w a) d)
  | .prgRom | .chrRom => s

/-- The segment CHR windows point into: CHR-ROM if present, else CHR-RAM (51_cartridge_mapper R712). -/
def CartInfo.chrSegment (c : CartInfo) : Segment := if c.chrCount = 0 then .chrRam else .chrRom

/-- The window of CPU slot 4 + k, for `a[14:13] = k` of an address in $8000-$FFFF (10_state R63). -/
def MapperState.prgWindow (m : MapperState) (a : Word) : Window := m.prg.get (a.extractLsb' 13 2).toFin

/-- The window of PPU slot `a[12:10]` (10_state R63). -/
def MapperState.chrWindow (m : MapperState) (a : VAddr) : Window := m.chr.get (a.extractLsb' 10 3).toFin

/-- `SetPrg(4 + k, i)` (51_cartridge_mapper R712). -/
def MapperState.setPrg (m : MapperState) (k : Fin 4) (i : Int) : MapperState :=
  { m with prg := m.prg.set k ⟨.prgRom, i⟩ }

/-- `SetChr(k, i)` in the CHR segment `c` (51_cartridge_mapper R712). -/
def MapperState.setChr (m : MapperState) (c : Segment) (k : Fin 8) (i : Int) : MapperState :=
  { m with chr := m.chr.set k ⟨c, i⟩ }

/-- 16 KB PRG bank `b` at slots (4, 5) (51_cartridge_mapper R712). -/
def MapperState.prg16Low (m : MapperState) (b : Int) : MapperState := (m.setPrg 0 (2 * b)).setPrg 1 (2 * b + 1)

/-- 16 KB PRG bank `b` at slots (6, 7). -/
def MapperState.prg16High (m : MapperState) (b : Int) : MapperState := (m.setPrg 2 (2 * b)).setPrg 3 (2 * b + 1)

/-- 32 KB PRG bank `b`: `SetPrg(4+j, 4b+j)`. -/
def MapperState.prg32 (m : MapperState) (b : Int) : MapperState :=
  (((m.setPrg 0 (4 * b)).setPrg 1 (4 * b + 1)).setPrg 2 (4 * b + 2)).setPrg 3 (4 * b + 3)

/-- 4 KB CHR bank `b` at the lower half: `SetChr(j, 4b+j)`. -/
def MapperState.chr4Low (m : MapperState) (c : Segment) (b : Int) : MapperState :=
  (((m.setChr c 0 (4 * b)).setChr c 1 (4 * b + 1)).setChr c 2 (4 * b + 2)).setChr c 3 (4 * b + 3)

/-- 4 KB CHR bank `b` at the upper half: `SetChr(4+j, 4b+j)`. -/
def MapperState.chr4High (m : MapperState) (c : Segment) (b : Int) : MapperState :=
  (((m.setChr c 4 (4 * b)).setChr c 5 (4 * b + 1)).setChr c 6 (4 * b + 2)).setChr c 7 (4 * b + 3)

/-- 8 KB CHR bank `b`: `SetChr(j, 8b+j)`, which is the 4 KB banks 2b and 2b+1. -/
def MapperState.chr8 (m : MapperState) (c : Segment) (b : Int) : MapperState :=
  (m.chr4Low c (2 * b)).chr4High c (2 * b + 1)

/-- `SetMirroring(m)` (51_cartridge_mapper R713). -/
def MapperState.setMirroring (m : MapperState) (l : Mirroring) : MapperState := { m with mirroring := l }

/-- The physical page of quadrant q (20_memory R160). -/
def Mirroring.page (l : Mirroring) (q : BitVec 2) : Nat :=
  match l with
  | .singleLow => 0
  | .singleHigh => 1
  | .horizontal => if q.getLsbD 1 then 1 else 0
  | .vertical => if q.getLsbD 0 then 1 else 0

end Sys2Proof.Machine
end

