-- ==== Sys2Proof/Machine/Mapper.lean ====
section
/-! DEFINITION. The mapper variants: their reset, their register writes and the MMC3 scanline counter
(51_cartridge_mapper R711, R714, R720 to R745). -/

namespace Sys2Proof.Machine

/-- `Mmc1Apply()` (51_cartridge_mapper R722), with the variant's state `r` and the CHR segment `c`. -/
def mmc1Apply (r : Mmc1) (c : Segment) (m : MapperState) : MapperState :=
  let prgBank : Int := (r.prgBank.extractLsb' 0 4).toNat
  let mirrored := m.setMirroring (match (r.control.extractLsb' 0 2).toNat with
    | 0 => .singleLow | 1 => .singleHigh | 2 => .vertical | _ => .horizontal)
  let banked := match (r.control.extractLsb' 2 2).toNat with
    | 0 | 1 => mirrored.prg32 (prgBank / 2)
    | 2 => (mirrored.prg16Low 0).prg16High prgBank
    | _ => (mirrored.prg16Low prgBank).prg16High (-1)
  let mapped :=
    if r.control.getLsbD 4 then (banked.chr4Low c r.chrBank0.toNat).chr4High c r.chrBank1.toNat
    else banked.chr8 c (r.chrBank0.toNat / 2 : Nat)
  { mapped with variant := .mmc1 r }

/-- MMC1 state after reset (51_cartridge_mapper R721). -/
def Mmc1.reset : Mmc1 := { shift := 0, count := 0, control := 0x0C, chrBank0 := 0, chrBank1 := 0, prgBank := 0 }

/-- The MMC1 register that the fifth write's address selects (51_cartridge_mapper R723). -/
def Mmc1.store (r : Mmc1) (a : Word) (v : BitVec 5) : Mmc1 :=
  match (a.extractLsb' 13 2).toNat with
  | 0 => { r with control := v }
  | 1 => { r with chrBank0 := v }
  | 2 => { r with chrBank1 := v }
  | _ => { r with prgBank := v }

/-- The value an MMC1 write shifts in: `(shift >> 1) | (d[0] << 4)` (51_cartridge_mapper R723). -/
def Mmc1.shifted (r : Mmc1) (d : Byte) : BitVec 5 := BitVec.ofBool (d.getLsbD 0) ++ r.shift.extractLsb' 1 4

/-- MMC1 register write (51_cartridge_mapper R723). -/
def mmc1Write (r : Mmc1) (c : Segment) (a : Word) (d : Byte) (m : MapperState) : MapperState :=
  if d.getLsbD 7 then mmc1Apply { r with shift := 0, count := 0, control := r.control ||| 0x0C } c m
  else if r.count + 1 = 5 then mmc1Apply { r.store a (r.shifted d) with shift := 0, count := 0 } c m
  else { m with variant := .mmc1 { r with shift := r.shifted d, count := r.count + 1 } }

/-- `two(k, r)` of 51_cartridge_mapper R745: an even and an odd 1 KB bank side by side. -/
def MapperState.chrPair (m : MapperState) (c : Segment) (k k' : Fin 8) (r : Byte) : MapperState :=
  (m.setChr c k (r &&& 0xFE).toNat).setChr c k' (r ||| 1).toNat

/-- `Mmc3Apply()` (51_cartridge_mapper R745). -/
def mmc3Apply (r : Mmc3) (c : Segment) (m : MapperState) : MapperState :=
  let bank (k : Fin 8) : Int := (r.R.get k).toNat
  let prg6 : Int := (r.R.get 6 &&& 0x3F).toNat
  let prg7 : Int := (r.R.get 7 &&& 0x3F).toNat
  let banked :=
    if r.bankSelect.getLsbD 6 then (((m.setPrg 0 (-2)).setPrg 1 prg7).setPrg 2 prg6).setPrg 3 (-1)
    else (((m.setPrg 0 prg6).setPrg 1 prg7).setPrg 2 (-2)).setPrg 3 (-1)
  let mapped :=
    if r.bankSelect.getLsbD 7 then
      (((((banked.setChr c 0 (bank 2)).setChr c 1 (bank 3)).setChr c 2 (bank 4)).setChr c 3 (bank 5)).chrPair c 4 5
        (r.R.get 0)).chrPair c 6 7 (r.R.get 1)
    else
      (((((banked.chrPair c 0 1 (r.R.get 0)).chrPair c 2 3 (r.R.get 1)).setChr c 4 (bank 2)).setChr c 5 (bank 3)).setChr
        c 6 (bank 4)).setChr c 7 (bank 5)
  { mapped with variant := .mmc3 r }

/-- MMC3 state after reset (51_cartridge_mapper R740, D28). -/
def Mmc3.reset : Mmc3 :=
  { bankSelect := 0, R := #v[0, 2, 4, 5, 6, 7, 0, 1], irqLatch := 0, irqCounter := 0, irqReload := false,
    irqEnabled := false, lastA12 := false }

/-- `Mmc3Clock()` on the counter (51_cartridge_mapper R742): reload at zero or on request, else count down. -/
def Mmc3.clock (r : Mmc3) : Mmc3 :=
  if r.irqCounter = 0 || r.irqReload then { r with irqCounter := r.irqLatch, irqReload := false }
  else { r with irqCounter := r.irqCounter - 1 }

/-- Whether `Mmc3Clock()` asserts the line (51_cartridge_mapper R742). -/
def Mmc3.asserts (r : Mmc3) : Bool := r.clock.irqCounter = 0 && r.clock.irqEnabled

/-- MMC3 register write (51_cartridge_mapper R744), decoded by `(a[14:13], a[0])`. -/
def mmc3Write (r : Mmc3) (c : Segment) (a : Word) (d : Byte) (m : MapperState) : MapperState :=
  match (a.extractLsb' 13 2).toNat, a.getLsbD 0 with
  | 0, false => mmc3Apply { r with bankSelect := d } c m
  | 0, true => mmc3Apply { r with R := r.R.set (r.bankSelect.extractLsb' 0 3).toFin d } c m
  | 1, false => m.setMirroring (if d.getLsbD 0 then .horizontal else .vertical)
  | 1, true => m
  | 2, false => { m with variant := .mmc3 { r with irqLatch := d } }
  | 2, true => { m with variant := .mmc3 { r with irqCounter := 0, irqReload := true } }
  | _, false => { m with variant := .mmc3 { r with irqEnabled := false } }
  | _, true => { m with variant := .mmc3 { r with irqEnabled := true } }

/-- Whether a register write is MMC3's $E000, which clears the IRQ line (51_cartridge_mapper R744). -/
def mmc3Acknowledges (a : Word) : Bool := (a.extractLsb' 13 2).toNat = 3 && !a.getLsbD 0

/-- AxROM register write: 32 KB bank `d[2:0]`, mirroring from `d[4]` (51_cartridge_mapper R732). -/
def axromWrite (d : Byte) (m : MapperState) : MapperState :=
  (m.prg32 (d.extractLsb' 0 3).toNat).setMirroring (if d.getLsbD 4 then .singleHigh else .singleLow)

/-- The mapper state after `MapperWrite(a, d)` (51_cartridge_mapper R711). -/
def MapperState.write (c : Segment) (a : Word) (d : Byte) (m : MapperState) : MapperState :=
  match m.variant with
  | .nrom => m
  | .mmc1 r => mmc1Write r c a d m
  | .uxrom => m.prg16Low d.toNat
  | .cnrom => m.chr8 c d.toNat
  | .mmc3 r => mmc3Write r c a d m
  | .axrom => axromWrite d m

/-- The IRQ line after `MapperWrite(a, d)`: only MMC3's $E000 clears it (51_cartridge_mapper R744, R750). -/
def MapperState.lineAfterWrite (m : MapperState) (a : Word) (line : Bool) : Bool :=
  match m.variant with
  | .mmc3 _ => line && !mmc3Acknowledges a
  | _ => line

/-- `MapperWrite(a, d)` (51_cartridge_mapper R711): a CPU write to $8000-$FFFF. -/
def mapperWrite (a : Word) (d : Byte) (s : State) : State :=
  (s.setIrqLine (s.map.lineAfterWrite a s.irqLine)).setMap (s.map.write s.cart.chrSegment a d)

/-- What `MapperVideoRead(a)` makes of MMC3's state: a rising edge of A12 clocks the counter (51_cartridge_mapper R741). -/
def Mmc3.observe (r : Mmc3) (a12 : Bool) : Mmc3 :=
  if !r.lastA12 && a12 then { r.clock with lastA12 := a12 } else { r with lastA12 := a12 }

/-- `MapperVideoRead(a)` (51_cartridge_mapper R700, R741, R742): empty but for MMC3. -/
def mapperVideoRead (a : VAddr) (s : State) : State :=
  match s.map.variant with
  | .mmc3 r =>
    (s.setIrqLine (s.irqLine || (!r.lastA12 && a.getLsbD 12 && r.asserts))).setMap
      { s.map with variant := .mmc3 (r.observe (a.getLsbD 12)) }
  | _ => s

/-- The variant's reset rule on mapper state whose mirroring is the header's (51_cartridge_mapper R720, R721, R730, R731,
R732, R740). -/
def MapperState.variantReset (c : Segment) (m : MapperState) : MapperState :=
  match m.variant with
  | .nrom | .cnrom => ((((m.setPrg 0 0).setPrg 1 1).setPrg 2 (-2)).setPrg 3 (-1)).chr8 c 0
  | .mmc1 _ => mmc1Apply Mmc1.reset c m
  | .uxrom => ((m.prg16Low 0).prg16High (-1)).chr8 c 0
  | .mmc3 _ => mmc3Apply Mmc3.reset c m
  | .axrom => ((m.prg32 0).chr8 c 0).setMirroring .singleLow

/-- The variant a mapper identifier names (00_scope R3), its state at reset. -/
def Variant.ofId (n : Nat) : Option Variant :=
  match n with
  | 0 => some .nrom
  | 1 => some (.mmc1 Mmc1.reset)
  | 2 => some .uxrom
  | 3 => some .cnrom
  | 4 => some (.mmc3 Mmc3.reset)
  | 7 => some .axrom
  | _ => none

/-- `MapperReset()` (51_cartridge_mapper R714) on windows that nothing has set. -/
def mapperReset (v : Variant) (c : CartInfo) : MapperState :=
  MapperState.variantReset c.chrSegment
    { variant := v, prg3 := ⟨.prgRam, 0⟩, prg := Vector.replicate 4 ⟨.prgRom, 0⟩,
      chr := Vector.replicate 8 ⟨c.chrSegment, 0⟩, mirroring := c.headerMirroring }

end Sys2Proof.Machine
end

