-- ==== Sys2Proof/Machine/PpuRegs.lean ====
section
/-! DEFINITION. Free values, the PPU bus (20_memory R159 to R162), the PPU's registers (50_ppu R600 to R610) and the
controller port (52_machine_and_host R810). -/

namespace Sys2Proof.Machine

/-- What a read gives: the byte, and the state after the read's side effects. -/
structure ReadOut where
  value : Byte
  state : State

/-- The next free value of the run (00_scope R13 `draw`); log 4. -/
def State.drawn (s : State) : Byte := Config.draw s.draws

/-- The state after one `draw`. -/
def State.afterDraw (s : State) : State := s.setDraws (s.draws + 1)

/-- A read that gives a draw (20_memory R154). -/
def drawRead (s : State) : ReadOut := { value := s.drawn, state := s.afterDraw }

/-- `PalIndex(a)`: $10, $14, $18 and $1C mirror $00, $04, $08 and $0C (20_memory R161). -/
def palIndex (a : VAddr) : Nat :=
  let i := (a.extractLsb' 0 5).toNat
  if i = 0x10 ∨ i = 0x14 ∨ i = 0x18 ∨ i = 0x1C then i % 16 else i

/-- The address in `ciram` of a PPU address in the nametable range (20_memory R159, R160). -/
def ciramAddr (l : Mirroring) (a : VAddr) : Nat := l.page (a.extractLsb' 10 2) * 1024 + (a.extractLsb' 0 10).toNat

/-- `VRead(a)` (20_memory R159) as a rendering fetch sees it: bits 7:6 of a palette cell are 0 (R161). -/
def vRead (s : State) (a : VAddr) : Byte :=
  if a.toNat < 0x2000 then windowRead s (s.map.chrWindow a) a.toNat
  else if a.toNat < 0x3F00 then s.ciram.read (ciramAddr s.map.mirroring a)
  else s.palette.read (palIndex a) &&& 0x3F

/-- `VWrite(a, d)` (20_memory R159, R161, R162); a palette cell holds six bits. -/
def vWrite (a : VAddr) (d : Byte) (s : State) : State :=
  if a.toNat < 0x2000 then windowWrite (s.map.chrWindow a) a.toNat d s
  else if a.toNat < 0x3F00 then s.setCiram (s.ciram.write (ciramAddr s.map.mirroring a) d)
  else s.setPalette (s.palette.write (palIndex a) (d &&& s.config.paletteMask &&& 0x3F))

/-- The eight PPU registers (50_ppu R600). -/
inductive PpuReg where
  | ctrl | mask | status | oamAddr | oamData | scroll | addr | data
  deriving DecidableEq, Repr

/-- The register `r = a & 7` selects (50_ppu R600). -/
def PpuReg.ofIndex (r : BitVec 3) : PpuReg :=
  match r.toNat with
  | 0 => .ctrl
  | 1 => .mask
  | 2 => .status
  | 3 => .oamAddr
  | 4 => .oamData
  | 5 => .scroll
  | 6 => .addr
  | _ => .data

/-- The PPU bus address of v: `v[13:0]` (50_ppu R608). -/
def Ppu.busAddr (p : Ppu) : VAddr := p.v.extractLsb' 0 14

/-- v after a $2007 access: `(v + inc) mod 2^15`, `inc` 32 or 1 by `ctrl[2]` (50_ppu R607). -/
def Ppu.vAfterAccess (p : Ppu) : Scroll := p.v + (if p.ctrl.getLsbD 2 then 32 else 1)

/-- $2002 read (50_ppu R603): `{vblank, draw[6:0]}`; clears `vblank` and `w`. -/
def statusRead (s : State) : ReadOut :=
  { value := BitVec.ofBool s.ppu.vblank ++ s.drawn.extractLsb' 0 7,
    state := s.afterDraw.setPpu { s.ppu with vblank := false, w := false } }

/-- $2004 read (50_ppu R605). -/
def oamDataRead (s : State) : ReadOut := { value := s.oam.read s.ppu.oamAddr.toNat, state := s }

/-- $2007 read (50_ppu R607): buffered below $3F00; at once, with bits 7:6 a draw, in the palette range. -/
def dataRead (s : State) : ReadOut :=
  let a := s.ppu.busAddr
  if a.toNat < 0x3F00 then
    { value := s.ppu.readBuffer,
      state := s.setPpu { s.ppu with readBuffer := vRead s a, v := s.ppu.vAfterAccess } }
  else
    { value := s.drawn.extractLsb' 6 2 ++ (vRead s a).extractLsb' 0 6,
      state := s.afterDraw.setPpu { s.ppu with readBuffer := vRead s (a - 0x1000), v := s.ppu.vAfterAccess } }

/-- `PpuRegRead(r)` (50_ppu R600, R610). -/
def ppuRegRead (r : PpuReg) (s : State) : ReadOut :=
  match r with
  | .ctrl | .mask | .oamAddr | .scroll | .addr => drawRead s
  | .status => statusRead s
  | .oamData => oamDataRead s
  | .data => dataRead s

/-- PPUCTRL write (50_ppu R601): `ctrl`, `t[11:10]`, and the NMI line when bit 7 rises during vertical blank. -/
def ctrlWrite (d : Byte) (s : State) : State :=
  (s.setNmiLine (s.nmiLine || (!s.ppu.ctrl.getLsbD 7 && d.getLsbD 7 && s.ppu.vblank))).setPpu
    { s.ppu with ctrl := d, t := setField s.ppu.t 10 (d.extractLsb' 0 2) }

/-- PPUSCROLL write (50_ppu R608): coarse X and fine X first, then fine Y and coarse Y. -/
def scrollWrite (d : Byte) (s : State) : State :=
  if s.ppu.w then
    s.setPpu { s.ppu with t := setField (setField s.ppu.t 12 (d.extractLsb' 0 3)) 5 (d.extractLsb' 3 5), w := false }
  else
    s.setPpu { s.ppu with t := setField s.ppu.t 0 (d.extractLsb' 3 5), x := d.extractLsb' 0 3, w := true }

/-- PPUADDR write (50_ppu R608): the high six bits with `t[14]` cleared, then the low byte and `v <- t`. -/
def addrWrite (d : Byte) (s : State) : State :=
  if s.ppu.w then
    s.setPpu { s.ppu with t := setField s.ppu.t 0 d, v := setField s.ppu.t 0 d, w := false }
  else
    s.setPpu { s.ppu with t := setField (setField s.ppu.t 8 (d.extractLsb' 0 6)) 14 (0 : BitVec 1), w := true }

/-- OAMDATA write (50_ppu R605). -/
def oamDataWrite (d : Byte) (s : State) : State :=
  (s.setOam (s.oam.write s.ppu.oamAddr.toNat d)).setPpu { s.ppu with oamAddr := s.ppu.oamAddr + 1 }

/-- PPUDATA write (50_ppu R607). -/
def dataWrite (d : Byte) (s : State) : State :=
  (vWrite s.ppu.busAddr d s).setPpu { s.ppu with v := s.ppu.vAfterAccess }

/-- `PpuRegWrite(r, d)` (50_ppu R600). -/
def ppuRegWrite (r : PpuReg) (d : Byte) (s : State) : State :=
  match r with
  | .ctrl => ctrlWrite d s
  | .mask => s.setPpu { s.ppu with mask := d }
  | .status => s
  | .oamAddr => s.setPpu { s.ppu with oamAddr := d }
  | .oamData => oamDataWrite d s
  | .scroll => scrollWrite d s
  | .addr => addrWrite d s
  | .data => dataWrite d s

/-- The bit a read of $4016 gives (52_machine_and_host R810). -/
def Pad.bit (p : Pad) : Bool := if p.strobe then p.input.getLsbD 0 else p.shift.getLsbD 0

/-- The controller after a read of $4016: with the strobe low it shifts a 1 in (52_machine_and_host R810). -/
def Pad.afterRead (p : Pad) : Pad := if p.strobe then p else { p with shift := (p.shift >>> 1) ||| 0x80 }

/-- The controller after a write of d to $4016 (52_machine_and_host R810). -/
def Pad.afterWrite (p : Pad) (d : Byte) : Pad :=
  { p with shift := if p.strobe || d.getLsbD 0 then p.input else p.shift, strobe := d.getLsbD 0 }

/-- $4016 read: `{draw[7:1], bit}` (52_machine_and_host R810). -/
def padRead (s : State) : ReadOut :=
  { value := s.drawn.extractLsb' 1 7 ++ BitVec.ofBool s.pad.bit, state := s.afterDraw.setPad s.pad.afterRead }

/-- $4017 read: `{draw[7:1], 0}`, no second controller (20_memory R151). -/
def pad2Read (s : State) : ReadOut := { value := s.drawn.extractLsb' 1 7 ++ (0 : BitVec 1), state := s.afterDraw }

end Sys2Proof.Machine
end

