-- ==== Sys2Proof/Machine/Ops.lean ====
section
/-! DEFINITION. The named operations of the CPU: the bus router (20_memory R151), OAM DMA (50_ppu R606), words, the stack
(00_scope R12), the end of an instruction, and taking an exception and returning from one (60_exceptions R912 to R917). -/

namespace Sys2Proof.Machine

/-- The rows of the CPU address map (20_memory R151). -/
inductive CpuRegion where
  /-- $0000-$1FFF. -/
  | ram
  /-- $2000-`ppuRegWindowEnd`. -/
  | ppu
  /-- Every row whose read is a draw and whose write is ignored. -/
  | unmapped
  /-- $4014. -/
  | oamDma
  /-- $4016. -/
  | pad
  /-- $4017. -/
  | pad2
  /-- $6000-$7FFF. -/
  | prgRam
  /-- $8000-$FFFF. -/
  | prgRom
  deriving DecidableEq, Repr

/-- The row of the CPU address map that decodes `a` (20_memory R151). -/
def cpuRegion (c : Config) (a : Word) : CpuRegion :=
  if a.toNat < 0x2000 then .ram
  else if a.toNat ≤ c.ppuRegWindowEnd.toNat ∧ a.toNat < 0x4000 then .ppu
  else if a.toNat < 0x4000 then .unmapped
  else if a.toNat = 0x4014 then .oamDma
  else if a.toNat = 0x4016 then .pad
  else if a.toNat = 0x4017 then .pad2
  else if a.toNat < 0x6000 then .unmapped
  else if a.toNat < 0x8000 then .prgRam
  else .prgRom

/-- The byte that RAM, PRG-RAM or PRG-ROM holds at a CPU address; `none` where the address is no memory. It is the
model's read of one byte of memory: no side effect, no draw. -/
def peek (s : State) (a : Word) : Option Byte :=
  if a.toNat < 0x2000 then some (s.ram.read (a.toNat % 2048))
  else if a.toNat < 0x6000 then none
  else if a.toNat < 0x8000 then some (windowRead s s.map.prg3 a.toNat)
  else some (windowRead s (s.map.prgWindow a) a.toNat)

/-- `MemRead(a, 1)` (20_memory R151, R158). -/
def memRead (a : Word) (s : State) : ReadOut :=
  match cpuRegion s.config a with
  | .ram => { value := s.ram.read (a.toNat % 2048), state := s }
  | .ppu => ppuRegRead (PpuReg.ofIndex (a.extractLsb' 0 3)) s
  | .unmapped | .oamDma => drawRead s
  | .pad => padRead s
  | .pad2 => pad2Read s
  | .prgRam => { value := windowRead s s.map.prg3 a.toNat, state := s }
  | .prgRom => { value := windowRead s (s.map.prgWindow a) a.toNat, state := s }

/-- Byte i of an OAM DMA (50_ppu R606): one bus read, then one OAM cell. -/
def dmaByte (page : Byte) (i : Nat) (s : State) : State :=
  let r := memRead (mkWord page (BitVec.ofNat 8 i)) s
  r.state.setOam (r.state.oam.write ((r.state.ppu.oamAddr.toNat + i) % 256) r.value)

/-- The last `n` bytes, 256 - n to 255, of an OAM DMA. -/
def dmaFrom (page : Byte) (n : Nat) (s : State) : State :=
  match n with
  | 0 => s
  | k + 1 => dmaFrom page k (dmaByte page (256 - (k + 1)) s)

/-- A write of `d` to $4014: 256 copies, and `oamDmaCycles` on the cost of the instruction (50_ppu R606,
31_decode_cache_and_run R311). -/
def oamDma (d : Byte) (s : State) : State :=
  let t := dmaFrom d 256 s
  t.setCycles (t.cycles + t.config.oamDmaCycles)

/-- `MemWrite(a, 1, d)` (20_memory R151, R153, R154). -/
def memWrite (a : Word) (d : Byte) (s : State) : State :=
  match cpuRegion s.config a with
  | .ram => s.setRam (s.ram.write (a.toNat % 2048) d)
  | .ppu => ppuRegWrite (PpuReg.ofIndex (a.extractLsb' 0 3)) d s
  | .oamDma => oamDma d s
  | .pad => s.setPad (s.pad.afterWrite d)
  | .unmapped | .pad2 => s
  | .prgRam => windowWrite s.map.prg3 a.toNat d s
  | .prgRom => mapperWrite a d s

/-- What a read of a word gives. -/
structure WordOut where
  value : Word
  state : State

/-- Two byte reads, the low byte first, put together little-endian (00_scope R12, 20_memory R156). -/
def readPair (aLo aHi : Word) (s : State) : WordOut :=
  let l := memRead aLo s
  let h := memRead aHi l.state
  { value := mkWord h.value l.value, state := h.state }

/-- `MemRead16(a)`, the address incremented modulo 2^16 (00_scope R12). -/
def memRead16 (a : Word) (s : State) : WordOut := readPair a (a + 1) s

/-- The address a push writes: $0100 + S (00_scope R12). -/
def stackAddr (s : State) : Word := mkWord 0x01 s.sp

/-- `Push(v)`: write, then decrement S (00_scope R12). -/
def push (v : Byte) (s : State) : State :=
  let t := memWrite (stackAddr s) v s
  t.setSp (t.sp - 1)

/-- `Pull()`: increment S, then read (00_scope R12). -/
def pull (s : State) : ReadOut :=
  let t := s.setSp (s.sp + 1)
  memRead (stackAddr t) t

/-- Pushes a word, high byte first, so that its low byte lies lower (60_exceptions R912, R916). -/
def pushWord (w : Word) (s : State) : State := push (lo w) (push (hi w) s)

/-- Pulls a word, low byte first (42_control_flags_misc R511). -/
def pullWord (s : State) : WordOut :=
  let l := pull s
  let h := pull l.state
  { value := mkWord h.value l.value, state := h.state }

/-- Adds to the cycle count of the `run` call (00_scope R13). -/
def charge (n : Nat) (s : State) : State := s.setCycles (s.cycles + n)

/-- The base cost of an opcode (30_encoding R276). -/
def baseCost (s : State) (opcode : Byte) : Nat := s.config.cycleTable.getD opcode.toNat 0

/-- The one more cycle of a read whose address crossed a page (30_encoding R268). -/
def pageCost (s : State) (crossed : Bool) : Nat := if crossed && s.config.pageCrossPenalty then 1 else 0

/-- The end of an instruction that transfers no control: `PC <- PC + len`, and its cost (10_state R52,
31_decode_cache_and_run R311). -/
def retire (opcode : Byte) (len : Nat) (crossed : Bool) (s : State) : State :=
  charge (baseCost s opcode + pageCost s crossed) (s.setPc (s.pc + BitVec.ofNat 16 len))

/-- The end of a jump: PC is the target, and its cost. -/
def retireTo (opcode : Byte) (target : Word) (s : State) : State := charge (baseCost s opcode) (s.setPc target)

/-- TAKING AN EXCEPTION (60_exceptions R912, R913, R916; 42_control_flags_misc R513): the return PC and the status byte go
to the stack, I is set, and PC is the word at the vector. Nothing else changes. -/
def takeException (ret : Word) (status : Byte) (vector : Word) (s : State) : State :=
  let pushed := push status (pushWord ret s)
  let masked := pushed.setP (setI pushed.p true)
  let v := memRead16 vector masked
  v.state.setPc v.value

/-- RETURNING FROM AN EXCEPTION (42_control_flags_misc R512): P, with B and U forced, then PC from the stack. -/
def returnFromException (s : State) : State :=
  let status := pull s
  let w := pullWord (status.state.setP (restoredP status.value))
  w.state.setPc w.value

/-- The NMI vector (20_memory R155). -/
def nmiVector : Word := 0xFFFA
/-- The reset vector. -/
def resetVector : Word := 0xFFFC
/-- The vector of IRQ and BRK. -/
def irqVector : Word := 0xFFFE

/-- `InterruptPending()` (60_exceptions R910). -/
def interruptPending (s : State) : Bool := s.nmiLine || (s.irqLine && !flagI s.p && s.config.irqServiced)

/-- The NMI entry sequence (60_exceptions R912), which clears the line. -/
def enterNmi (s : State) : State :=
  ((takeException s.pc (pushedByInterrupt s.p) nmiVector (s.setNmiLine false)).setCur none)

/-- The IRQ entry sequence (60_exceptions R913); the line stays as it is. -/
def enterIrq (s : State) : State := (takeException s.pc (pushedByInterrupt s.p) irqVector s).setCur none

/-- The interrupt entry step: NMI before IRQ, 7 cycles (60_exceptions R910, R915; 31_decode_cache_and_run R302). -/
def enterInterrupt (s : State) : State := charge 7 (if s.nmiLine then enterNmi s else enterIrq s)

end Sys2Proof.Machine
end

