-- ==== Sys2Proof/Machine/Traces.lean ====
section
/-! DEFINITION. Fetch through the decode cache: building a trace, the cache as a finite map, and the cursor
(31_decode_cache_and_run R303 to R306; 30_encoding R270). -/

namespace Sys2Proof.Machine

/-- The addresses instruction bytes may be read from (31_decode_cache_and_run R304, D6). -/
def executable (a : Word) : Bool := a.toNat < 0x2000 || 0x6000 ≤ a.toNat

/-- An instruction byte, read through the CPU bus (31_decode_cache_and_run R304). In the executable range a read has no
side effect, so only its value is used. -/
def fetchByte (s : State) (a : Word) : Byte := (memRead a s).value

/-- `Decode(a)` (30_encoding R270), refused at the first instruction byte outside the executable range
(31_decode_cache_and_run R304). -/
def decodeAt (s : State) (a : Word) : Except Refusal MicroOp :=
  if !executable a then .error (.fetchOutsideMemory a)
  else
    let m := microOpOf a (fetchByte s a) (fetchByte s (a + 1)) (fetchByte s (a + 2))
    if 2 ≤ m.len && !executable (a + 1) then .error (.fetchOutsideMemory (a + 1))
    else if m.len = 3 && !executable (a + 2) then .error (.fetchOutsideMemory (a + 2))
    else .ok m

/-- Where the instruction after a micro-op begins. -/
def nextAddr (m : MicroOp) : Word := m.addr + BitVec.ofNat 16 m.len

/-- The straight line stops at a micro-op that ends a trace, or where the next instruction would wrap past $FFFF
(31_decode_cache_and_run R304, R305). -/
def stopsBuild (m : MicroOp) : Bool :=
  m.endsTrace || decide ((nextAddr m).toNat < m.addr.toNat) || decide (nextAddr m = 0)

/-- The loop of `Build` (31_decode_cache_and_run R304). Each round takes at least one byte below $10000, so 65,536 rounds
are always enough. -/
def buildFrom (s : State) (rounds : Nat) (a : Word) : Except Refusal Trace :=
  match decodeAt s a with
  | .error r => .error r
  | .ok m =>
    match rounds with
    | 0 => .ok { first := m, rest := [] }
    | n + 1 =>
      if stopsBuild m then .ok { first := m, rest := [] }
      else
        match buildFrom s n (nextAddr m) with
        | .error r => .error r
        | .ok t => .ok { first := m, rest := t.ops }

/-- `Build(p)` (31_decode_cache_and_run R304). -/
def build (s : State) (p : Word) : Except Refusal Trace := buildFrom s 65536 p

/-- `cache[k]` (10_state R57). -/
def cacheLookup (c : List (Word × Trace)) (k : Word) : Option Trace :=
  match c with
  | [] => none
  | (j, t) :: rest => if j = k then some t else cacheLookup rest k

/-- `cache[k] <- t` for a key not yet there, the keys kept in rising order. -/
def cacheInsert (c : List (Word × Trace)) (k : Word) (t : Trace) : List (Word × Trace) :=
  match c with
  | [] => [(k, t)]
  | (j, u) :: rest => if k.toNat < j.toNat then (k, t) :: (j, u) :: rest else (j, u) :: cacheInsert rest k t

/-- The micro-op the cursor names, if it stands at PC (31_decode_cache_and_run R303). -/
def cursorOp (s : State) : Option MicroOp :=
  match s.cur with
  | none => none
  | some (k, i) =>
    match cacheLookup s.cache k with
    | none => none
    | some t =>
      match t.ops[i]? with
      | none => none
      | some m => if m.addr = s.pc then some m else none

/-- What a fetch gives: the micro-op, and the state with the cache and the cursor it leaves. -/
structure FetchOut where
  op : MicroOp
  state : State

/-- The trace at PC, from the cache or built now (31_decode_cache_and_run R303, R304). -/
def traceAtPc (s : State) : Except Refusal (Trace × State) :=
  match cacheLookup s.cache s.pc with
  | some t => .ok (t, s)
  | none =>
    match build s s.pc with
    | .error r => .error r
    | .ok t => .ok (t, s.setCache (cacheInsert s.cache s.pc t))

/-- `Fetch()` (31_decode_cache_and_run R303). -/
def fetch (s : State) : Except Refusal FetchOut :=
  match cursorOp s with
  | some m => .ok { op := m, state := s }
  | none =>
    match traceAtPc s with
    | .error r => .error r
    | .ok (t, u) => .ok { op := t.first, state := u.setCur (some (s.pc, 0)) }

/-- The cursor after a micro-op has executed (31_decode_cache_and_run R306). -/
def cursorAfter (m : MicroOp) (cur : Option (Word × Nat)) : Option (Word × Nat) :=
  if m.kind.isControlTransfer then none
  else
    match cur with
    | none => none
    | some (k, i) => some (k, i + 1)

end Sys2Proof.Machine
end

