-- ==== Sys2Proof/Machine/Placing.lean ====
section
/-! DEFINITION. Placing the bytes of one instruction where the next fetch reads them. This stands for the loading of a
program from outside the machine (log 6); no instruction does it. -/

namespace Sys2Proof.Machine

/-- Stores a byte in the memory that a fetch at `a` reads: RAM, PRG-RAM or PRG-ROM, through the windows as they are. -/
def placeByte (a : Word) (d : Byte) (s : State) : State :=
  if a.toNat < 0x2000 then s.setRam (s.ram.write (a.toNat % 2048) d)
  else if a.toNat < 0x6000 then s
  else
    let w := if a.toNat < 0x8000 then s.map.prg3 else s.map.prgWindow a
    match w.seg with
    | .prgRom => s.setPrgRom (s.prgRom.write (s.cart.windowOffset w a.toNat) d)
    | _ => windowWrite w a.toNat d s

/-- The cache without its entry for a key, which would hide the bytes placed there (31_decode_cache_and_run R307). -/
def cacheErase (c : List (Word × Trace)) (k : Word) : List (Word × Trace) := c.filter (fun e => e.1 ≠ k)

/-- The host's side with a batch about to begin: no call is listed before it, and it has a cycle to run. -/
def HostPort.ready (h : HostPort) : HostPort := { h with alive := true, running := none, calls := [], count := max 1 h.count }

/-- The three bytes of an instruction at PC, no trace and no interrupt before it, and a batch about to begin. -/
def placeInstruction (b0 b1 b2 : Byte) (s : State) : State :=
  let t := placeByte s.pc b0 (placeByte (s.pc + 1) b1 (placeByte (s.pc + 2) b2 s))
  ((((t.setCache (cacheErase t.cache t.pc)).setCur none).setNmiLine false).setIrqLine false).setHost t.host.ready

end Sys2Proof.Machine
end

