-- ==== Sys2Proof/Machine/Operands.lean ====
section
/-! DEFINITION. Every operand form: effective addresses (30_encoding R258 to R266), the operand of a read (R254, R257), and
the target of a branch (R267). -/

namespace Sys2Proof.Machine

/-- The operand forms that have an effective address, with the operand field of the instruction. -/
inductive MemOperand where
  /-- Zero page (30_encoding R258). -/
  | zp (op : Byte)
  /-- Zero page,X (R259). -/
  | zpx (op : Byte)
  /-- Zero page,Y (R260). -/
  | zpy (op : Byte)
  /-- Absolute (R261). -/
  | abs (op : Word)
  /-- Absolute,X (R264). -/
  | abx (op : Word)
  /-- Absolute,Y (R265). -/
  | aby (op : Word)
  /-- Indirect, JMP only (R266). -/
  | ind (op : Word)
  /-- Indexed indirect (R262). -/
  | izx (op : Byte)
  /-- Indirect indexed (R263). -/
  | izy (op : Byte)
  deriving DecidableEq, Repr

/-- The operand of a read: an immediate byte, or a byte of memory (30_encoding R254). -/
inductive Source where
  | imm (op : Byte)
  | mem (m : MemOperand)
  deriving DecidableEq, Repr

/-- The length of an instruction with this operand form (30_encoding R251). -/
def MemOperand.length : MemOperand → Nat
  | .zp _ | .zpx _ | .zpy _ | .izx _ | .izy _ => 2
  | .abs _ | .abx _ | .aby _ | .ind _ => 3

/-- The length of an instruction with this operand (30_encoding R251). -/
def Source.length : Source → Nat
  | .imm _ => 2
  | .mem m => m.length

/-- An effective address: the address, whether forming it crossed a page (30_encoding R268), and the state after the
pointer reads. -/
structure EaOut where
  addr : Word
  crossed : Bool
  state : State

/-- `base + index` modulo 2^16; it crosses a page when the high bytes differ (30_encoding R263 to R265). -/
def indexed (base : Word) (index : Byte) (s : State) : EaOut :=
  { addr := base + zext16 index, crossed := hi (base + zext16 index) ≠ hi base, state := s }

/-- A pointer in zero page: low byte at p, high byte at p + 1 modulo 256 (30_encoding R262, R263). -/
def zeroPagePointer (p : Byte) (s : State) : WordOut := readPair (zext16 p) (zext16 (p + 1)) s

/-- The pointer of JMP indirect: the second read does not carry into the high byte (30_encoding R266). -/
def jumpPointer (op : Word) (s : State) : WordOut := readPair op (mkWord (hi op) (lo op + 1)) s

/-- `EA(mode)` (30_encoding R258 to R266). -/
def MemOperand.ea (m : MemOperand) (s : State) : EaOut :=
  match m with
  | .zp op => { addr := zext16 op, crossed := false, state := s }
  | .zpx op => { addr := zext16 (op + s.x), crossed := false, state := s }
  | .zpy op => { addr := zext16 (op + s.y), crossed := false, state := s }
  | .abs op => { addr := op, crossed := false, state := s }
  | .abx op => indexed op s.x s
  | .aby op => indexed op s.y s
  | .ind op => { addr := (jumpPointer op s).value, crossed := false, state := (jumpPointer op s).state }
  | .izx op =>
    { addr := (zeroPagePointer (op + s.x) s).value, crossed := false, state := (zeroPagePointer (op + s.x) s).state }
  | .izy op => indexed (zeroPagePointer op s).value s.y (zeroPagePointer op s).state

/-- The operand of a read, whether its address crossed a page, and the state after the reads. -/
structure LoadOut where
  value : Byte
  crossed : Bool
  state : State

/-- `Load(mode)` (30_encoding R254): the immediate byte with no access, or one data read after the pointer reads. -/
def Source.load (o : Source) (s : State) : LoadOut :=
  match o with
  | .imm op => { value := op, crossed := false, state := s }
  | .mem m =>
    { value := (memRead (m.ea s).addr (m.ea s).state).value, crossed := (m.ea s).crossed,
      state := (memRead (m.ea s).addr (m.ea s).state).state }

/-- `next = PC + 2`, the base of a branch offset (30_encoding R267). -/
def branchNext (s : State) : Word := s.pc + 2

/-- The target of a branch: `next + sext_16(op)` modulo 2^16 (30_encoding R267). -/
def branchTarget (op : Byte) (s : State) : Word := branchNext s + sext16 op

/-- `extra`, the cost of a taken branch beyond its base: 1, and 1 more on a page cross (42_control_flags_misc R500). -/
def branchExtra (op : Byte) (s : State) : Nat := if hi (branchTarget op s) ≠ hi (branchNext s) then 2 else 1

end Sys2Proof.Machine
end

