-- ==== Sys2Proof/Machine/LoadStore.lean ====
section
/-! DEFINITION. The meanings of the loads, stores, register transfers and stack instructions (40_load_store_transfer R400 to
R415), each one line over a shared operation. -/

namespace Sys2Proof.Machine

/-- A step that goes on: no instruction of the table ends in a fault or a refusal (60_exceptions R900). -/
abbrev Out := Host.Outcome State Fault Refusal

/-- LDA, LDX, LDY: `r <- Load(mode); setNZ(r); PC <- PC + len` (40_load_store_transfer R400 to R402). -/
def loadReg (r : Reg) (opcode : Byte) (o : Source) (s : State) : Out :=
  let m := o.load s
  .next (retire opcode o.length m.crossed ((m.state.setReg r m.value).setP (setNZ m.state.p m.value)))

/-- STA, STX, STY: `MemWrite(EA(mode), 1, r); PC <- PC + len`, with no data read (40_load_store_transfer R403 to R405). -/
def storeReg (r : Reg) (opcode : Byte) (m : MemOperand) (s : State) : Out :=
  let e := m.ea s
  .next (retire opcode m.length false (memWrite e.addr (e.state.reg r) e.state))

/-- TAX, TAY, TXA, TYA, TSX: `dst <- src; setNZ(dst); PC <- PC + 1` (40_load_store_transfer R406 to R410). -/
def transfer (src dst : Reg) (opcode : Byte) (s : State) : Out :=
  .next (retire opcode 1 false ((s.setReg dst (s.reg src)).setP (setNZ s.p (s.reg src))))

/-- LDA imm, $A9 (R400). -/
def execLdaImm (op : Byte) (s : State) : Out := loadReg .a 0xA9 (.imm op) s

/-- LDA zp, $A5 (R400). -/
def execLdaZp (op : Byte) (s : State) : Out := loadReg .a 0xA5 (.mem (.zp op)) s

/-- LDA zpx, $B5 (R400). -/
def execLdaZpx (op : Byte) (s : State) : Out := loadReg .a 0xB5 (.mem (.zpx op)) s

/-- LDA abs, $AD (R400). -/
def execLdaAbs (op : Word) (s : State) : Out := loadReg .a 0xAD (.mem (.abs op)) s

/-- LDA abx, $BD (R400). -/
def execLdaAbx (op : Word) (s : State) : Out := loadReg .a 0xBD (.mem (.abx op)) s

/-- LDA aby, $B9 (R400). -/
def execLdaAby (op : Word) (s : State) : Out := loadReg .a 0xB9 (.mem (.aby op)) s

/-- LDA izx, $A1 (R400). -/
def execLdaIzx (op : Byte) (s : State) : Out := loadReg .a 0xA1 (.mem (.izx op)) s

/-- LDA izy, $B1 (R400). -/
def execLdaIzy (op : Byte) (s : State) : Out := loadReg .a 0xB1 (.mem (.izy op)) s

/-- LDX imm, $A2 (R401). -/
def execLdxImm (op : Byte) (s : State) : Out := loadReg .x 0xA2 (.imm op) s

/-- LDX zp, $A6 (R401). -/
def execLdxZp (op : Byte) (s : State) : Out := loadReg .x 0xA6 (.mem (.zp op)) s

/-- LDX zpy, $B6 (R401). -/
def execLdxZpy (op : Byte) (s : State) : Out := loadReg .x 0xB6 (.mem (.zpy op)) s

/-- LDX abs, $AE (R401). -/
def execLdxAbs (op : Word) (s : State) : Out := loadReg .x 0xAE (.mem (.abs op)) s

/-- LDX aby, $BE (R401). -/
def execLdxAby (op : Word) (s : State) : Out := loadReg .x 0xBE (.mem (.aby op)) s

/-- LDY imm, $A0 (R402). -/
def execLdyImm (op : Byte) (s : State) : Out := loadReg .y 0xA0 (.imm op) s

/-- LDY zp, $A4 (R402). -/
def execLdyZp (op : Byte) (s : State) : Out := loadReg .y 0xA4 (.mem (.zp op)) s

/-- LDY zpx, $B4 (R402). -/
def execLdyZpx (op : Byte) (s : State) : Out := loadReg .y 0xB4 (.mem (.zpx op)) s

/-- LDY abs, $AC (R402). -/
def execLdyAbs (op : Word) (s : State) : Out := loadReg .y 0xAC (.mem (.abs op)) s

/-- LDY abx, $BC (R402). -/
def execLdyAbx (op : Word) (s : State) : Out := loadReg .y 0xBC (.mem (.abx op)) s

/-- STA zp, $85 (R403). -/
def execStaZp (op : Byte) (s : State) : Out := storeReg .a 0x85 (.zp op) s

/-- STA zpx, $95 (R403). -/
def execStaZpx (op : Byte) (s : State) : Out := storeReg .a 0x95 (.zpx op) s

/-- STA abs, $8D (R403). -/
def execStaAbs (op : Word) (s : State) : Out := storeReg .a 0x8D (.abs op) s

/-- STA abx, $9D (R403). -/
def execStaAbx (op : Word) (s : State) : Out := storeReg .a 0x9D (.abx op) s

/-- STA aby, $99 (R403). -/
def execStaAby (op : Word) (s : State) : Out := storeReg .a 0x99 (.aby op) s

/-- STA izx, $81 (R403). -/
def execStaIzx (op : Byte) (s : State) : Out := storeReg .a 0x81 (.izx op) s

/-- STA izy, $91 (R403). -/
def execStaIzy (op : Byte) (s : State) : Out := storeReg .a 0x91 (.izy op) s

/-- STX zp, $86 (R404). -/
def execStxZp (op : Byte) (s : State) : Out := storeReg .x 0x86 (.zp op) s

/-- STX zpy, $96 (R404). -/
def execStxZpy (op : Byte) (s : State) : Out := storeReg .x 0x96 (.zpy op) s

/-- STX abs, $8E (R404). -/
def execStxAbs (op : Word) (s : State) : Out := storeReg .x 0x8E (.abs op) s

/-- STY zp, $84 (R405). -/
def execStyZp (op : Byte) (s : State) : Out := storeReg .y 0x84 (.zp op) s

/-- STY zpx, $94 (R405). -/
def execStyZpx (op : Byte) (s : State) : Out := storeReg .y 0x94 (.zpx op) s

/-- STY abs, $8C (R405). -/
def execStyAbs (op : Word) (s : State) : Out := storeReg .y 0x8C (.abs op) s

/-- TAX imp, $AA (R406). -/
def execTax (s : State) : Out := transfer .a .x 0xAA s

/-- TAY imp, $A8 (R407). -/
def execTay (s : State) : Out := transfer .a .y 0xA8 s

/-- TXA imp, $8A (R408). -/
def execTxa (s : State) : Out := transfer .x .a 0x8A s

/-- TYA imp, $98 (R409). -/
def execTya (s : State) : Out := transfer .y .a 0x98 s

/-- TSX imp, $BA (R410). -/
def execTsx (s : State) : Out := transfer .sp .x 0xBA s

/-- TXS imp, $9A (R411). -/
def execTxs (s : State) : Out := .next (retire 0x9A 1 false (s.setSp s.x))

/-- PHA imp, $48 (R412). -/
def execPha (s : State) : Out := .next (retire 0x48 1 false (push s.a s))

/-- PLA imp, $68 (R413). -/
def execPla (s : State) : Out := 
  let m := pull s
  .next (retire 0x68 1 false ((m.state.setA m.value).setP (setNZ m.state.p m.value)))

/-- PHP imp, $08 (R414). -/
def execPhp (s : State) : Out := .next (retire 0x08 1 false (push (pushedBySoftware s.p) s))

/-- PLP imp, $28 (R415). -/
def execPlp (s : State) : Out := 
  let m := pull s
  .next (retire 0x28 1 false (m.state.setP (restoredP m.value)))

end Sys2Proof.Machine
end

