-- ==== Sys2Proof/Machine/Arithmetic.lean ====
section
/-! DEFINITION. The meanings of the arithmetic, logic, compare, increment and shift instructions (41_arith_logic_shift R450
to R468), each one line over a shared operation. -/

namespace Sys2Proof.Machine

/-- ADC, SBC, AND, ORA, EOR: the operand and A through `f` into A and P (41_arith_logic_shift R450 to R454). -/
def accumulate (f : Byte → Byte → Byte → AluOut) (opcode : Byte) (o : Source) (s : State) : Out :=
  let m := o.load s
  let r := f m.state.a m.value m.state.p
  .next (retire opcode o.length m.crossed ((m.state.setA r.result).setP r.p))

/-- BIT, CMP, CPX, CPY: flags from a register and the operand, no register written (41_arith_logic_shift R455 to R458). -/
def testReg (f : Byte → Byte → Byte → Byte) (r : Reg) (opcode : Byte) (o : Source) (s : State) : Out :=
  let m := o.load s
  .next (retire opcode o.length m.crossed (m.state.setP (f (m.state.reg r) m.value m.state.p)))

/-- Read-modify-write on memory: one read, then one write of the same address (30_encoding R254, D11). -/
def modifyMem (f : Byte → Byte → AluOut) (opcode : Byte) (m : MemOperand) (s : State) : Out :=
  let e := m.ea s
  let d := memRead e.addr e.state
  let r := f d.value d.state.p
  .next (retire opcode m.length false ((memWrite e.addr r.result d.state).setP r.p))

/-- A read-modify-write of a register: INX, INY, DEX, DEY, and the shifts in accumulator mode (30_encoding R256). -/
def modifyReg (f : Byte → Byte → AluOut) (r : Reg) (opcode : Byte) (s : State) : Out :=
  let o := f (s.reg r) s.p
  .next (retire opcode 1 false ((s.setReg r o.result).setP o.p))

/-- ADC imm, $69 (R450). -/
def execAdcImm (op : Byte) (s : State) : Out := accumulate adc 0x69 (.imm op) s

/-- ADC zp, $65 (R450). -/
def execAdcZp (op : Byte) (s : State) : Out := accumulate adc 0x65 (.mem (.zp op)) s

/-- ADC zpx, $75 (R450). -/
def execAdcZpx (op : Byte) (s : State) : Out := accumulate adc 0x75 (.mem (.zpx op)) s

/-- ADC abs, $6D (R450). -/
def execAdcAbs (op : Word) (s : State) : Out := accumulate adc 0x6D (.mem (.abs op)) s

/-- ADC abx, $7D (R450). -/
def execAdcAbx (op : Word) (s : State) : Out := accumulate adc 0x7D (.mem (.abx op)) s

/-- ADC aby, $79 (R450). -/
def execAdcAby (op : Word) (s : State) : Out := accumulate adc 0x79 (.mem (.aby op)) s

/-- ADC izx, $61 (R450). -/
def execAdcIzx (op : Byte) (s : State) : Out := accumulate adc 0x61 (.mem (.izx op)) s

/-- ADC izy, $71 (R450). -/
def execAdcIzy (op : Byte) (s : State) : Out := accumulate adc 0x71 (.mem (.izy op)) s

/-- SBC imm, $E9 (R451). -/
def execSbcImm (op : Byte) (s : State) : Out := accumulate sbc 0xE9 (.imm op) s

/-- SBC zp, $E5 (R451). -/
def execSbcZp (op : Byte) (s : State) : Out := accumulate sbc 0xE5 (.mem (.zp op)) s

/-- SBC zpx, $F5 (R451). -/
def execSbcZpx (op : Byte) (s : State) : Out := accumulate sbc 0xF5 (.mem (.zpx op)) s

/-- SBC abs, $ED (R451). -/
def execSbcAbs (op : Word) (s : State) : Out := accumulate sbc 0xED (.mem (.abs op)) s

/-- SBC abx, $FD (R451). -/
def execSbcAbx (op : Word) (s : State) : Out := accumulate sbc 0xFD (.mem (.abx op)) s

/-- SBC aby, $F9 (R451). -/
def execSbcAby (op : Word) (s : State) : Out := accumulate sbc 0xF9 (.mem (.aby op)) s

/-- SBC izx, $E1 (R451). -/
def execSbcIzx (op : Byte) (s : State) : Out := accumulate sbc 0xE1 (.mem (.izx op)) s

/-- SBC izy, $F1 (R451). -/
def execSbcIzy (op : Byte) (s : State) : Out := accumulate sbc 0xF1 (.mem (.izy op)) s

/-- AND imm, $29 (R452). -/
def execAndImm (op : Byte) (s : State) : Out := accumulate andOp 0x29 (.imm op) s

/-- AND zp, $25 (R452). -/
def execAndZp (op : Byte) (s : State) : Out := accumulate andOp 0x25 (.mem (.zp op)) s

/-- AND zpx, $35 (R452). -/
def execAndZpx (op : Byte) (s : State) : Out := accumulate andOp 0x35 (.mem (.zpx op)) s

/-- AND abs, $2D (R452). -/
def execAndAbs (op : Word) (s : State) : Out := accumulate andOp 0x2D (.mem (.abs op)) s

/-- AND abx, $3D (R452). -/
def execAndAbx (op : Word) (s : State) : Out := accumulate andOp 0x3D (.mem (.abx op)) s

/-- AND aby, $39 (R452). -/
def execAndAby (op : Word) (s : State) : Out := accumulate andOp 0x39 (.mem (.aby op)) s

/-- AND izx, $21 (R452). -/
def execAndIzx (op : Byte) (s : State) : Out := accumulate andOp 0x21 (.mem (.izx op)) s

/-- AND izy, $31 (R452). -/
def execAndIzy (op : Byte) (s : State) : Out := accumulate andOp 0x31 (.mem (.izy op)) s

/-- ORA imm, $09 (R453). -/
def execOraImm (op : Byte) (s : State) : Out := accumulate oraOp 0x09 (.imm op) s

/-- ORA zp, $05 (R453). -/
def execOraZp (op : Byte) (s : State) : Out := accumulate oraOp 0x05 (.mem (.zp op)) s

/-- ORA zpx, $15 (R453). -/
def execOraZpx (op : Byte) (s : State) : Out := accumulate oraOp 0x15 (.mem (.zpx op)) s

/-- ORA abs, $0D (R453). -/
def execOraAbs (op : Word) (s : State) : Out := accumulate oraOp 0x0D (.mem (.abs op)) s

/-- ORA abx, $1D (R453). -/
def execOraAbx (op : Word) (s : State) : Out := accumulate oraOp 0x1D (.mem (.abx op)) s

/-- ORA aby, $19 (R453). -/
def execOraAby (op : Word) (s : State) : Out := accumulate oraOp 0x19 (.mem (.aby op)) s

/-- ORA izx, $01 (R453). -/
def execOraIzx (op : Byte) (s : State) : Out := accumulate oraOp 0x01 (.mem (.izx op)) s

/-- ORA izy, $11 (R453). -/
def execOraIzy (op : Byte) (s : State) : Out := accumulate oraOp 0x11 (.mem (.izy op)) s

/-- EOR imm, $49 (R454). -/
def execEorImm (op : Byte) (s : State) : Out := accumulate eorOp 0x49 (.imm op) s

/-- EOR zp, $45 (R454). -/
def execEorZp (op : Byte) (s : State) : Out := accumulate eorOp 0x45 (.mem (.zp op)) s

/-- EOR zpx, $55 (R454). -/
def execEorZpx (op : Byte) (s : State) : Out := accumulate eorOp 0x55 (.mem (.zpx op)) s

/-- EOR abs, $4D (R454). -/
def execEorAbs (op : Word) (s : State) : Out := accumulate eorOp 0x4D (.mem (.abs op)) s

/-- EOR abx, $5D (R454). -/
def execEorAbx (op : Word) (s : State) : Out := accumulate eorOp 0x5D (.mem (.abx op)) s

/-- EOR aby, $59 (R454). -/
def execEorAby (op : Word) (s : State) : Out := accumulate eorOp 0x59 (.mem (.aby op)) s

/-- EOR izx, $41 (R454). -/
def execEorIzx (op : Byte) (s : State) : Out := accumulate eorOp 0x41 (.mem (.izx op)) s

/-- EOR izy, $51 (R454). -/
def execEorIzy (op : Byte) (s : State) : Out := accumulate eorOp 0x51 (.mem (.izy op)) s

/-- BIT zp, $24 (R455). -/
def execBitZp (op : Byte) (s : State) : Out := testReg bitFlags .a 0x24 (.mem (.zp op)) s

/-- BIT abs, $2C (R455). -/
def execBitAbs (op : Word) (s : State) : Out := testReg bitFlags .a 0x2C (.mem (.abs op)) s

/-- CMP imm, $C9 (R456). -/
def execCmpImm (op : Byte) (s : State) : Out := testReg compareFlags .a 0xC9 (.imm op) s

/-- CMP zp, $C5 (R456). -/
def execCmpZp (op : Byte) (s : State) : Out := testReg compareFlags .a 0xC5 (.mem (.zp op)) s

/-- CMP zpx, $D5 (R456). -/
def execCmpZpx (op : Byte) (s : State) : Out := testReg compareFlags .a 0xD5 (.mem (.zpx op)) s

/-- CMP abs, $CD (R456). -/
def execCmpAbs (op : Word) (s : State) : Out := testReg compareFlags .a 0xCD (.mem (.abs op)) s

/-- CMP abx, $DD (R456). -/
def execCmpAbx (op : Word) (s : State) : Out := testReg compareFlags .a 0xDD (.mem (.abx op)) s

/-- CMP aby, $D9 (R456). -/
def execCmpAby (op : Word) (s : State) : Out := testReg compareFlags .a 0xD9 (.mem (.aby op)) s

/-- CMP izx, $C1 (R456). -/
def execCmpIzx (op : Byte) (s : State) : Out := testReg compareFlags .a 0xC1 (.mem (.izx op)) s

/-- CMP izy, $D1 (R456). -/
def execCmpIzy (op : Byte) (s : State) : Out := testReg compareFlags .a 0xD1 (.mem (.izy op)) s

/-- CPX imm, $E0 (R457). -/
def execCpxImm (op : Byte) (s : State) : Out := testReg compareFlags .x 0xE0 (.imm op) s

/-- CPX zp, $E4 (R457). -/
def execCpxZp (op : Byte) (s : State) : Out := testReg compareFlags .x 0xE4 (.mem (.zp op)) s

/-- CPX abs, $EC (R457). -/
def execCpxAbs (op : Word) (s : State) : Out := testReg compareFlags .x 0xEC (.mem (.abs op)) s

/-- CPY imm, $C0 (R458). -/
def execCpyImm (op : Byte) (s : State) : Out := testReg compareFlags .y 0xC0 (.imm op) s

/-- CPY zp, $C4 (R458). -/
def execCpyZp (op : Byte) (s : State) : Out := testReg compareFlags .y 0xC4 (.mem (.zp op)) s

/-- CPY abs, $CC (R458). -/
def execCpyAbs (op : Word) (s : State) : Out := testReg compareFlags .y 0xCC (.mem (.abs op)) s

/-- INC zp, $E6 (R459). -/
def execIncZp (op : Byte) (s : State) : Out := modifyMem incOp 0xE6 (.zp op) s

/-- INC zpx, $F6 (R459). -/
def execIncZpx (op : Byte) (s : State) : Out := modifyMem incOp 0xF6 (.zpx op) s

/-- INC abs, $EE (R459). -/
def execIncAbs (op : Word) (s : State) : Out := modifyMem incOp 0xEE (.abs op) s

/-- INC abx, $FE (R459). -/
def execIncAbx (op : Word) (s : State) : Out := modifyMem incOp 0xFE (.abx op) s

/-- DEC zp, $C6 (R460). -/
def execDecZp (op : Byte) (s : State) : Out := modifyMem decOp 0xC6 (.zp op) s

/-- DEC zpx, $D6 (R460). -/
def execDecZpx (op : Byte) (s : State) : Out := modifyMem decOp 0xD6 (.zpx op) s

/-- DEC abs, $CE (R460). -/
def execDecAbs (op : Word) (s : State) : Out := modifyMem decOp 0xCE (.abs op) s

/-- DEC abx, $DE (R460). -/
def execDecAbx (op : Word) (s : State) : Out := modifyMem decOp 0xDE (.abx op) s

/-- INX imp, $E8 (R461). -/
def execInx (s : State) : Out := modifyReg incOp .x 0xE8 s

/-- INY imp, $C8 (R462). -/
def execIny (s : State) : Out := modifyReg incOp .y 0xC8 s

/-- DEX imp, $CA (R463). -/
def execDex (s : State) : Out := modifyReg decOp .x 0xCA s

/-- DEY imp, $88 (R464). -/
def execDey (s : State) : Out := modifyReg decOp .y 0x88 s

/-- ASL acc, $0A (R465). -/
def execAslAcc (s : State) : Out := modifyReg aslOp .a 0x0A s

/-- ASL zp, $06 (R465). -/
def execAslZp (op : Byte) (s : State) : Out := modifyMem aslOp 0x06 (.zp op) s

/-- ASL zpx, $16 (R465). -/
def execAslZpx (op : Byte) (s : State) : Out := modifyMem aslOp 0x16 (.zpx op) s

/-- ASL abs, $0E (R465). -/
def execAslAbs (op : Word) (s : State) : Out := modifyMem aslOp 0x0E (.abs op) s

/-- ASL abx, $1E (R465). -/
def execAslAbx (op : Word) (s : State) : Out := modifyMem aslOp 0x1E (.abx op) s

/-- LSR acc, $4A (R466). -/
def execLsrAcc (s : State) : Out := modifyReg lsrOp .a 0x4A s

/-- LSR zp, $46 (R466). -/
def execLsrZp (op : Byte) (s : State) : Out := modifyMem lsrOp 0x46 (.zp op) s

/-- LSR zpx, $56 (R466). -/
def execLsrZpx (op : Byte) (s : State) : Out := modifyMem lsrOp 0x56 (.zpx op) s

/-- LSR abs, $4E (R466). -/
def execLsrAbs (op : Word) (s : State) : Out := modifyMem lsrOp 0x4E (.abs op) s

/-- LSR abx, $5E (R466). -/
def execLsrAbx (op : Word) (s : State) : Out := modifyMem lsrOp 0x5E (.abx op) s

/-- ROL acc, $2A (R467). -/
def execRolAcc (s : State) : Out := modifyReg rolOp .a 0x2A s

/-- ROL zp, $26 (R467). -/
def execRolZp (op : Byte) (s : State) : Out := modifyMem rolOp 0x26 (.zp op) s

/-- ROL zpx, $36 (R467). -/
def execRolZpx (op : Byte) (s : State) : Out := modifyMem rolOp 0x36 (.zpx op) s

/-- ROL abs, $2E (R467). -/
def execRolAbs (op : Word) (s : State) : Out := modifyMem rolOp 0x2E (.abs op) s

/-- ROL abx, $3E (R467). -/
def execRolAbx (op : Word) (s : State) : Out := modifyMem rolOp 0x3E (.abx op) s

/-- ROR acc, $6A (R468). -/
def execRorAcc (s : State) : Out := modifyReg rorOp .a 0x6A s

/-- ROR zp, $66 (R468). -/
def execRorZp (op : Byte) (s : State) : Out := modifyMem rorOp 0x66 (.zp op) s

/-- ROR zpx, $76 (R468). -/
def execRorZpx (op : Byte) (s : State) : Out := modifyMem rorOp 0x76 (.zpx op) s

/-- ROR abs, $6E (R468). -/
def execRorAbs (op : Word) (s : State) : Out := modifyMem rorOp 0x6E (.abs op) s

/-- ROR abx, $7E (R468). -/
def execRorAbx (op : Word) (s : State) : Out := modifyMem rorOp 0x7E (.abx op) s

end Sys2Proof.Machine
end

