-- ==== Sys2Proof/Machine/Control.lean ====
section
/-! DEFINITION. The meanings of the branches, jumps, subroutine instructions, RTI, BRK, the flag instructions and NOP
(42_control_flags_misc R500 to R521), each one line over a shared operation. -/

namespace Sys2Proof.Machine

/-- A conditional branch (42_control_flags_misc R500). -/
def branch (taken : Bool) (opcode op : Byte) (s : State) : Out :=
  if taken then .next (charge (branchExtra op s) (retireTo opcode (branchTarget op s) s))
  else .next (retireTo opcode (branchNext s) s)

/-- A flag instruction: P is changed and PC advances (42_control_flags_misc R514 to R520). -/
def changeP (f : Byte → Byte) (opcode : Byte) (s : State) : Out := .next (retire opcode 1 false (s.setP (f s.p)))

/-- BCC rel, $90 (R501). -/
def execBcc (op : Byte) (s : State) : Out := branch (!flagC s.p) 0x90 op s

/-- BCS rel, $B0 (R502). -/
def execBcs (op : Byte) (s : State) : Out := branch (flagC s.p) 0xB0 op s

/-- BEQ rel, $F0 (R503). -/
def execBeq (op : Byte) (s : State) : Out := branch (flagZ s.p) 0xF0 op s

/-- BMI rel, $30 (R504). -/
def execBmi (op : Byte) (s : State) : Out := branch (flagN s.p) 0x30 op s

/-- BNE rel, $D0 (R505). -/
def execBne (op : Byte) (s : State) : Out := branch (!flagZ s.p) 0xD0 op s

/-- BPL rel, $10 (R506). -/
def execBpl (op : Byte) (s : State) : Out := branch (!flagN s.p) 0x10 op s

/-- BVC rel, $50 (R507). -/
def execBvc (op : Byte) (s : State) : Out := branch (!flagV s.p) 0x50 op s

/-- BVS rel, $70 (R508). -/
def execBvs (op : Byte) (s : State) : Out := branch (flagV s.p) 0x70 op s

/-- JMP abs, $4C (R509). -/
def execJmpAbs (op : Word) (s : State) : Out := 
  let e := MemOperand.ea (.abs op) s
  .next (retireTo 0x4C e.addr e.state)

/-- JMP ind, $6C (R509). -/
def execJmpInd (op : Word) (s : State) : Out := 
  let e := MemOperand.ea (.ind op) s
  .next (retireTo 0x6C e.addr e.state)

/-- JSR abs, $20 (R510). -/
def execJsr (op : Word) (s : State) : Out := .next (retireTo 0x20 op (pushWord (s.pc + 2) s))

/-- RTS imp, $60 (R511). -/
def execRts (s : State) : Out := 
  let w := pullWord s
  .next (retireTo 0x60 (w.value + 1) w.state)

/-- RTI imp, $40 (R512). -/
def execRti (s : State) : Out := .next (charge (baseCost s 0x40) (returnFromException s))

/-- BRK imp, $00 (R513). -/
def execBrk (s : State) : Out := 
  .next (charge (baseCost s 0x00) (takeException (s.pc + 2) (pushedBySoftware s.p) irqVector s))

/-- CLC imp, $18 (R514). -/
def execClc (s : State) : Out := changeP (fun p => setC p false) 0x18 s

/-- CLD imp, $D8 (R515). -/
def execCld (s : State) : Out := changeP (fun p => setD p false) 0xD8 s

/-- CLI imp, $58 (R516). -/
def execCli (s : State) : Out := changeP (fun p => setI p false) 0x58 s

/-- CLV imp, $B8 (R517). -/
def execClv (s : State) : Out := changeP (fun p => setV p false) 0xB8 s

/-- SEC imp, $38 (R518). -/
def execSec (s : State) : Out := changeP (fun p => setC p true) 0x38 s

/-- SED imp, $F8 (R519). -/
def execSed (s : State) : Out := changeP (fun p => setD p true) 0xF8 s

/-- SEI imp, $78 (R520). -/
def execSei (s : State) : Out := changeP (fun p => setI p true) 0x78 s

/-- NOP imp, $EA (R521). -/
def execNop (s : State) : Out := .next (retire 0xEA 1 false s)

end Sys2Proof.Machine
end

