-- ==== Sys2Proof/Machine/Dispatch.lean ====
section
/-! DEFINITION. Dispatch: one arm for each constructor of `Instr`, a direct call of its meaning (30_encoding R273). -/

namespace Sys2Proof.Machine

def exec (i : Instr) (s : State) : Host.Outcome State Fault Refusal :=
  match i with
  | .adcImm op => Sys2Proof.Machine.execAdcImm op s
  | .adcZp op => Sys2Proof.Machine.execAdcZp op s
  | .adcZpx op => Sys2Proof.Machine.execAdcZpx op s
  | .adcAbs op => Sys2Proof.Machine.execAdcAbs op s
  | .adcAbx op => Sys2Proof.Machine.execAdcAbx op s
  | .adcAby op => Sys2Proof.Machine.execAdcAby op s
  | .adcIzx op => Sys2Proof.Machine.execAdcIzx op s
  | .adcIzy op => Sys2Proof.Machine.execAdcIzy op s
  | .andImm op => Sys2Proof.Machine.execAndImm op s
  | .andZp op => Sys2Proof.Machine.execAndZp op s
  | .andZpx op => Sys2Proof.Machine.execAndZpx op s
  | .andAbs op => Sys2Proof.Machine.execAndAbs op s
  | .andAbx op => Sys2Proof.Machine.execAndAbx op s
  | .andAby op => Sys2Proof.Machine.execAndAby op s
  | .andIzx op => Sys2Proof.Machine.execAndIzx op s
  | .andIzy op => Sys2Proof.Machine.execAndIzy op s
  | .aslAcc => Sys2Proof.Machine.execAslAcc s
  | .aslZp op => Sys2Proof.Machine.execAslZp op s
  | .aslZpx op => Sys2Proof.Machine.execAslZpx op s
  | .aslAbs op => Sys2Proof.Machine.execAslAbs op s
  | .aslAbx op => Sys2Proof.Machine.execAslAbx op s
  | .bcc op => Sys2Proof.Machine.execBcc op s
  | .bcs op => Sys2Proof.Machine.execBcs op s
  | .beq op => Sys2Proof.Machine.execBeq op s
  | .bitZp op => Sys2Proof.Machine.execBitZp op s
  | .bitAbs op => Sys2Proof.Machine.execBitAbs op s
  | .bmi op => Sys2Proof.Machine.execBmi op s
  | .bne op => Sys2Proof.Machine.execBne op s
  | .bpl op => Sys2Proof.Machine.execBpl op s
  | .brk => Sys2Proof.Machine.execBrk s
  | .bvc op => Sys2Proof.Machine.execBvc op s
  | .bvs op => Sys2Proof.Machine.execBvs op s
  | .clc => Sys2Proof.Machine.execClc s
  | .cld => Sys2Proof.Machine.execCld s
  | .cli => Sys2Proof.Machine.execCli s
  | .clv => Sys2Proof.Machine.execClv s
  | .cmpImm op => Sys2Proof.Machine.execCmpImm op s
  | .cmpZp op => Sys2Proof.Machine.execCmpZp op s
  | .cmpZpx op => Sys2Proof.Machine.execCmpZpx op s
  | .cmpAbs op => Sys2Proof.Machine.execCmpAbs op s
  | .cmpAbx op => Sys2Proof.Machine.execCmpAbx op s
  | .cmpAby op => Sys2Proof.Machine.execCmpAby op s
  | .cmpIzx op => Sys2Proof.Machine.execCmpIzx op s
  | .cmpIzy op => Sys2Proof.Machine.execCmpIzy op s
  | .cpxImm op => Sys2Proof.Machine.execCpxImm op s
  | .cpxZp op => Sys2Proof.Machine.execCpxZp op s
  | .cpxAbs op => Sys2Proof.Machine.execCpxAbs op s
  | .cpyImm op => Sys2Proof.Machine.execCpyImm op s
  | .cpyZp op => Sys2Proof.Machine.execCpyZp op s
  | .cpyAbs op => Sys2Proof.Machine.execCpyAbs op s
  | .decZp op => Sys2Proof.Machine.execDecZp op s
  | .decZpx op => Sys2Proof.Machine.execDecZpx op s
  | .decAbs op => Sys2Proof.Machine.execDecAbs op s
  | .decAbx op => Sys2Proof.Machine.execDecAbx op s
  | .dex => Sys2Proof.Machine.execDex s
  | .dey => Sys2Proof.Machine.execDey s
  | .eorImm op => Sys2Proof.Machine.execEorImm op s
  | .eorZp op => Sys2Proof.Machine.execEorZp op s
  | .eorZpx op => Sys2Proof.Machine.execEorZpx op s
  | .eorAbs op => Sys2Proof.Machine.execEorAbs op s
  | .eorAbx op => Sys2Proof.Machine.execEorAbx op s
  | .eorAby op => Sys2Proof.Machine.execEorAby op s
  | .eorIzx op => Sys2Proof.Machine.execEorIzx op s
  | .eorIzy op => Sys2Proof.Machine.execEorIzy op s
  | .incZp op => Sys2Proof.Machine.execIncZp op s
  | .incZpx op => Sys2Proof.Machine.execIncZpx op s
  | .incAbs op => Sys2Proof.Machine.execIncAbs op s
  | .incAbx op => Sys2Proof.Machine.execIncAbx op s
  | .inx => Sys2Proof.Machine.execInx s
  | .iny => Sys2Proof.Machine.execIny s
  | .jmpAbs op => Sys2Proof.Machine.execJmpAbs op s
  | .jmpInd op => Sys2Proof.Machine.execJmpInd op s
  | .jsr op => Sys2Proof.Machine.execJsr op s
  | .ldaImm op => Sys2Proof.Machine.execLdaImm op s
  | .ldaZp op => Sys2Proof.Machine.execLdaZp op s
  | .ldaZpx op => Sys2Proof.Machine.execLdaZpx op s
  | .ldaAbs op => Sys2Proof.Machine.execLdaAbs op s
  | .ldaAbx op => Sys2Proof.Machine.execLdaAbx op s
  | .ldaAby op => Sys2Proof.Machine.execLdaAby op s
  | .ldaIzx op => Sys2Proof.Machine.execLdaIzx op s
  | .ldaIzy op => Sys2Proof.Machine.execLdaIzy op s
  | .ldxImm op => Sys2Proof.Machine.execLdxImm op s
  | .ldxZp op => Sys2Proof.Machine.execLdxZp op s
  | .ldxZpy op => Sys2Proof.Machine.execLdxZpy op s
  | .ldxAbs op => Sys2Proof.Machine.execLdxAbs op s
  | .ldxAby op => Sys2Proof.Machine.execLdxAby op s
  | .ldyImm op => Sys2Proof.Machine.execLdyImm op s
  | .ldyZp op => Sys2Proof.Machine.execLdyZp op s
  | .ldyZpx op => Sys2Proof.Machine.execLdyZpx op s
  | .ldyAbs op => Sys2Proof.Machine.execLdyAbs op s
  | .ldyAbx op => Sys2Proof.Machine.execLdyAbx op s
  | .lsrAcc => Sys2Proof.Machine.execLsrAcc s
  | .lsrZp op => Sys2Proof.Machine.execLsrZp op s
  | .lsrZpx op => Sys2Proof.Machine.execLsrZpx op s
  | .lsrAbs op => Sys2Proof.Machine.execLsrAbs op s
  | .lsrAbx op => Sys2Proof.Machine.execLsrAbx op s
  | .nop => Sys2Proof.Machine.execNop s
  | .oraImm op => Sys2Proof.Machine.execOraImm op s
  | .oraZp op => Sys2Proof.Machine.execOraZp op s
  | .oraZpx op => Sys2Proof.Machine.execOraZpx op s
  | .oraAbs op => Sys2Proof.Machine.execOraAbs op s
  | .oraAbx op => Sys2Proof.Machine.execOraAbx op s
  | .oraAby op => Sys2Proof.Machine.execOraAby op s
  | .oraIzx op => Sys2Proof.Machine.execOraIzx op s
  | .oraIzy op => Sys2Proof.Machine.execOraIzy op s
  | .pha => Sys2Proof.Machine.execPha s
  | .php => Sys2Proof.Machine.execPhp s
  | .pla => Sys2Proof.Machine.execPla s
  | .plp => Sys2Proof.Machine.execPlp s
  | .rolAcc => Sys2Proof.Machine.execRolAcc s
  | .rolZp op => Sys2Proof.Machine.execRolZp op s
  | .rolZpx op => Sys2Proof.Machine.execRolZpx op s
  | .rolAbs op => Sys2Proof.Machine.execRolAbs op s
  | .rolAbx op => Sys2Proof.Machine.execRolAbx op s
  | .rorAcc => Sys2Proof.Machine.execRorAcc s
  | .rorZp op => Sys2Proof.Machine.execRorZp op s
  | .rorZpx op => Sys2Proof.Machine.execRorZpx op s
  | .rorAbs op => Sys2Proof.Machine.execRorAbs op s
  | .rorAbx op => Sys2Proof.Machine.execRorAbx op s
  | .rti => Sys2Proof.Machine.execRti s
  | .rts => Sys2Proof.Machine.execRts s
  | .sbcImm op => Sys2Proof.Machine.execSbcImm op s
  | .sbcZp op => Sys2Proof.Machine.execSbcZp op s
  | .sbcZpx op => Sys2Proof.Machine.execSbcZpx op s
  | .sbcAbs op => Sys2Proof.Machine.execSbcAbs op s
  | .sbcAbx op => Sys2Proof.Machine.execSbcAbx op s
  | .sbcAby op => Sys2Proof.Machine.execSbcAby op s
  | .sbcIzx op => Sys2Proof.Machine.execSbcIzx op s
  | .sbcIzy op => Sys2Proof.Machine.execSbcIzy op s
  | .sec => Sys2Proof.Machine.execSec s
  | .sed => Sys2Proof.Machine.execSed s
  | .sei => Sys2Proof.Machine.execSei s
  | .staZp op => Sys2Proof.Machine.execStaZp op s
  | .staZpx op => Sys2Proof.Machine.execStaZpx op s
  | .staAbs op => Sys2Proof.Machine.execStaAbs op s
  | .staAbx op => Sys2Proof.Machine.execStaAbx op s
  | .staAby op => Sys2Proof.Machine.execStaAby op s
  | .staIzx op => Sys2Proof.Machine.execStaIzx op s
  | .staIzy op => Sys2Proof.Machine.execStaIzy op s
  | .stxZp op => Sys2Proof.Machine.execStxZp op s
  | .stxZpy op => Sys2Proof.Machine.execStxZpy op s
  | .stxAbs op => Sys2Proof.Machine.execStxAbs op s
  | .styZp op => Sys2Proof.Machine.execStyZp op s
  | .styZpx op => Sys2Proof.Machine.execStyZpx op s
  | .styAbs op => Sys2Proof.Machine.execStyAbs op s
  | .tax => Sys2Proof.Machine.execTax s
  | .tay => Sys2Proof.Machine.execTay s
  | .tsx => Sys2Proof.Machine.execTsx s
  | .txa => Sys2Proof.Machine.execTxa s
  | .txs => Sys2Proof.Machine.execTxs s
  | .tya => Sys2Proof.Machine.execTya s

end Sys2Proof.Machine
end

