-- ==== Sys2Proof/Machine/PpuDots.lean ====
section
/-! DEFINITION. The dot clock of the PPU: fetches, shift registers, pixels, scroll increments and copies, the vertical-blank
flag and the NMI generator (50_ppu R620 to R638). -/

namespace Sys2Proof.Machine

/-- Rendering is enabled: `mask[3]` or `mask[4]` (50_ppu R620). -/
def Ppu.rendering (p : Ppu) : Bool := p.mask.getLsbD 3 || p.mask.getLsbD 4

/-- `NTaddr = $2000 | (v & $0FFF)` (50_ppu R626). -/
def Ppu.ntAddr (p : Ppu) : VAddr := 0x2000 ||| (p.busAddr &&& 0x0FFF)

/-- `ATaddr` (50_ppu R626). -/
def Ppu.atAddr (p : Ppu) : VAddr :=
  0x23C0 ||| (p.busAddr &&& 0x0C00) ||| ((p.busAddr >>> 4) &&& 0x38) ||| ((p.busAddr >>> 2) &&& 0x07)

/-- `AtShift`: coarse Y bit 1 gives 4, coarse X bit 1 gives 2 (50_ppu R626). -/
def Ppu.atShift (p : Ppu) : Nat := (((p.v >>> 4) &&& 4) ||| (p.v &&& 2)).toNat

/-- `PTaddr` (50_ppu R626). -/
def Ppu.ptAddr (p : Ppu) : VAddr :=
  (if p.ctrl.getLsbD 4 then 0x1000 else 0) + (p.ntLatch.setWidth 14 <<< 4) + (p.v.extractLsb' 12 3).setWidth 14

/-- `SPaddr`, the pattern of the empty sprite slot (50_ppu R636). -/
def Ppu.spAddr (p : Ppu) : VAddr :=
  if p.ctrl.getLsbD 5 then 0x1FE0 else (if p.ctrl.getLsbD 3 then 0x1FF0 else 0x0FF0)

/-- The shift of the four shift registers (50_ppu R628). -/
def Ppu.shifted (p : Ppu) : Ppu :=
  { p with bgLo := p.bgLo >>> 1, bgHi := p.bgHi >>> 1, atLo := p.atLo >>> 1, atHi := p.atHi >>> 1 }

/-- Eight copies of an attribute bit (50_ppu R627). -/
def eightCopies (b : Bool) : Byte := if b then 0xFF else 0

/-- The reload of the shift registers' high bytes, pattern bytes bit-reversed (50_ppu R627). -/
def Ppu.reloaded (p : Ppu) : Ppu :=
  { p with
    bgLo := setField p.bgLo 8 (rev8 p.ptLoLatch), bgHi := setField p.bgHi 8 (rev8 p.ptHiLatch),
    atLo := setField p.atLo 8 (eightCopies (p.atLatch.getLsbD 0)),
    atHi := setField p.atHi 8 (eightCopies (p.atLatch.getLsbD 1)) }

/-- The coarse-X increment (50_ppu R630): wraps after 31 and toggles `v[10]`. -/
def incCoarseX (v : Scroll) : Scroll :=
  if v.extractLsb' 0 5 = 31 then setField v 0 (0 : BitVec 5) ^^^ 0x0400 else setField v 0 (v.extractLsb' 0 5 + 1)

/-- The Y increment (50_ppu R631): row 29 wraps and toggles `v[11]`, row 31 wraps without toggling. -/
def incY (v : Scroll) : Scroll :=
  if (v.extractLsb' 12 3).toNat < 7 then setField v 12 (v.extractLsb' 12 3 + 1)
  else if v.extractLsb' 5 5 = 29 then setField (setField v 12 (0 : BitVec 3)) 5 (0 : BitVec 5) ^^^ 0x0800
  else if v.extractLsb' 5 5 = 31 then setField (setField v 12 (0 : BitVec 3)) 5 (0 : BitVec 5)
  else setField (setField v 12 (0 : BitVec 3)) 5 (v.extractLsb' 5 5 + 1)

/-- The horizontal copy: `v <- (v & ~$041F) | (t & $041F)` (50_ppu R632). -/
def copyHorizontal (v t : Scroll) : Scroll := (v &&& ~~~0x041F) ||| (t &&& 0x041F)

/-- The vertical copy: `v <- (v & ~$7BE0) | (t & $7BE0)` (50_ppu R632). -/
def copyVertical (v t : Scroll) : Scroll := (v &&& ~~~0x7BE0) ||| (t &&& 0x7BE0)

/-- The two pattern bits of the pixel at column X, 0 where the background is hidden (50_ppu R629). -/
def Ppu.patternBits (p : Ppu) (X : Nat) : BitVec 2 :=
  if !p.mask.getLsbD 3 || (!p.mask.getLsbD 1 && X < 8) then 0
  else BitVec.ofBool (p.bgHi.getLsbD p.x.toNat) ++ BitVec.ofBool (p.bgLo.getLsbD p.x.toNat)

/-- The two attribute bits of the pixel (50_ppu R629). -/
def Ppu.attributeBits (p : Ppu) : BitVec 2 :=
  BitVec.ofBool (p.atHi.getLsbD p.x.toNat) ++ BitVec.ofBool (p.atLo.getLsbD p.x.toNat)

/-- The palette address of the pixel at column X: the backdrop when rendering is disabled or the pattern bits are 0
(50_ppu R629, R637). -/
def Ppu.colourAddr (p : Ppu) (X : Nat) : VAddr :=
  if p.rendering && p.patternBits X ≠ 0 then 0x3F00 + ((p.attributeBits ++ p.patternBits X).setWidth 14) else 0x3F00

/-- The pixel of line L at dot D, 1 to 256 (50_ppu R624 step 1, R629, R637). -/
def pixel (L D : Nat) (s : State) : State :=
  s.setFrame (s.frame.write (256 * L + (D - 1)) (vRead s (s.ppu.colourAddr (D - 1)) &&& 0x3F))

/-- A background fetch dot after the shift: the fetch of phase f, and at phase 7 the reload and the coarse-X increment
(50_ppu R625, R627, R630); pattern fetches are seen by the mapper's monitor (R638). -/
def backgroundFetch (f : Nat) (s : State) : State :=
  match f with
  | 1 => s.setPpu { s.ppu with ntLatch := vRead s s.ppu.ntAddr }
  | 3 => s.setPpu { s.ppu with atLatch := (vRead s s.ppu.atAddr >>> s.ppu.atShift).extractLsb' 0 2 }
  | 5 => mapperVideoRead s.ppu.ptAddr (s.setPpu { s.ppu with ptLoLatch := vRead s s.ppu.ptAddr })
  | 7 =>
    let t := mapperVideoRead (s.ppu.ptAddr + 8) (s.setPpu { s.ppu with ptHiLatch := vRead s (s.ppu.ptAddr + 8) })
    t.setPpu { t.ppu.reloaded with v := incCoarseX t.ppu.v }
  | _ => s

/-- A dot of the two fetch ranges: shift, then fetch (50_ppu R624 steps 2.1 and 2.2). -/
def fetchDot (D : Nat) (s : State) : State :=
  if (1 ≤ D ∧ D ≤ 256) ∨ (321 ≤ D ∧ D ≤ 336) then backgroundFetch ((D - 1) % 8) (s.setPpu s.ppu.shifted) else s

/-- The Y increment at dot 256 and the horizontal copy at dot 257 (50_ppu R624 steps 2.3 and 2.4). -/
def scrollDot (D : Nat) (s : State) : State :=
  if D = 256 then s.setPpu { s.ppu with v := incY s.ppu.v }
  else if D = 257 then s.setPpu { s.ppu with v := copyHorizontal s.ppu.v s.ppu.t }
  else s

/-- The sprite-slot fetches at dots 257-320 (50_ppu R636). The nametable reads there, and the idle reads at dots 337 and
339, change nothing, since a PPU-bus read has no side effect and the monitor sees only pattern reads. -/
def spriteDot (D : Nat) (s : State) : State :=
  if 257 ≤ D ∧ D ≤ 320 ∧ (D - 257) % 8 = 5 then mapperVideoRead s.ppu.spAddr s
  else if 257 ≤ D ∧ D ≤ 320 ∧ (D - 257) % 8 = 7 then mapperVideoRead (s.ppu.spAddr + 8) s
  else s

/-- The vertical copy at dots 280-304 of the prescan line (50_ppu R624 step 2.7). -/
def verticalCopyDot (L D : Nat) (s : State) : State :=
  if L = s.config.prescanLine ∧ 280 ≤ D ∧ D ≤ 304 then s.setPpu { s.ppu with v := copyVertical s.ppu.v s.ppu.t } else s

/-- Step 2 of 50_ppu R624: what a visible or prescan line does at dot D when rendering is enabled. -/
def renderDot (L D : Nat) (s : State) : State := verticalCopyDot L D (spriteDot D (scrollDot D (fetchDot D s)))

/-- VBlank entry (50_ppu R633): the flag, the frame callback, and the NMI line when `ctrl[7]` is set (R635). -/
def enterVblank (s : State) : State :=
  ((s.setHost { s.host with out := .frame s.frame :: s.host.out }).setNmiLine
    (s.nmiLine || s.ppu.ctrl.getLsbD 7)).setPpu { s.ppu with vblank := true }

/-- The flag events at (241, 1) and (261, 1) (50_ppu R633, R634). Where parameters put both on one line, only the entry
happens: the spec does not say (R622, R624 step 3). DESIGN CHOICE, log 20; unsafe. -/
def flagDot (L D : Nat) (s : State) : State :=
  if D ≠ 1 then s
  else if L = s.config.vblankLine then enterVblank s
  else if L = s.config.prescanLine then s.setPpu { s.ppu with vblank := false }
  else s

/-- `DotActions(L, D)` (50_ppu R624). Where parameters make a line visible and the prescan or vertical-blank line too, it
does what both classes do, which the spec leaves open (R622). DESIGN CHOICE, log 20; unsafe. -/
def dotActions (L D : Nat) (s : State) : State :=
  let drawn := if L < 240 ∧ 1 ≤ D ∧ D ≤ 256 then pixel L D s else s
  let rendered := if (L < 240 ∨ L = s.config.prescanLine) ∧ s.ppu.rendering then renderDot L D drawn else drawn
  flagDot L D rendered

/-- The dot and line counters after a dot (50_ppu R621). -/
def Ppu.advanced (p : Ppu) (c : Config) : Ppu :=
  if p.dot + 1 = c.dotsPerLine then { p with dot := 0, line := (p.line + 1) % c.linesPerFrame }
  else { p with dot := p.dot + 1 }

/-- `Dot()` (50_ppu R621). -/
def dot (s : State) : State :=
  let t := dotActions s.ppu.line s.ppu.dot s
  t.setPpu (t.ppu.advanced t.config)

/-- `tick(n)`: exactly n dots (50_ppu R621). -/
def tick (n : Nat) (s : State) : State :=
  match n with
  | 0 => s
  | k + 1 => tick k (dot s)

end Sys2Proof.Machine
end

