-- ==== Sys2Proof/Machine/Run.lean ====
section
/-! DEFINITION. One CPU step (31_decode_cache_and_run R302), the batch of a `runCycles` call (R300, 52_machine_and_host
R803), the other host calls (R802 to R806, R821), and one step of the machine. -/

namespace Sys2Proof.Machine

/-- `Execute(mop)`: dispatch on (kind, mode) (30_encoding R271, R273). -/
def execute (m : MicroOp) (s : State) : Out :=
  if m.kind = .undefined then .fault (.undefinedOpcode m.opcode m.addr)
  else
    match m.instr with
    | none => .fault (.dispatchMiss m.kind m.mode)
    | some i => exec i s

/-- The state after a micro-op: what it did, and the cursor (31_decode_cache_and_run R306). -/
def settle (m : MicroOp) (o : Out) : Out :=
  match o with
  | .next t => .next (t.setCur (cursorAfter m t.cur))
  | .fault f => .fault f
  | .refused r => .refused r

/-- `Step()` (31_decode_cache_and_run R302): an interrupt entry, or one instruction. Its cost is charged inside. -/
def cpuStep (s : State) : Out :=
  if interruptPending s then .next (enterInterrupt s)
  else
    match fetch s with
    | .error r => .refused r
    | .ok f => settle f.op (execute f.op f.state)

/-- Something is given to the host (52_machine_and_host R800, R805). -/
def emit (e : HostEvent) (s : State) : State := s.setHost { s.host with out := e :: s.host.out }

/-- The start of `run(n)`: no cycles yet, no cursor (31_decode_cache_and_run R300). -/
def startRun (n : Nat) (s : State) : State :=
  ((s.setCycles 0).setCur none).setHost { s.host with running := some n }

/-- The end of `runCycles`: the PPU's three dots for every cycle of the batch, and the result (52_machine_and_host R803). -/
def endRun (s : State) : State := emit (.ran s.cycles) (tick (3 * s.cycles) (s.setHost { s.host with running := none }))

/-- The batch ends once n cycles have elapsed (31_decode_cache_and_run R300). -/
def closeRun (n : Nat) (s : State) : State := if s.cycles < n then s else endRun s

/-- One round of the loop of `run(n)`, and the end of the call with it (31_decode_cache_and_run R300). -/
def runRound (n : Nat) (s : State) : Out :=
  if s.cycles < n then
    match cpuStep s with
    | .next t => .next (closeRun n t)
    | .fault f => .fault f
    | .refused r => .refused r
  else .next (endRun s)

/-- `regRead(reg)` (52_machine_and_host R802). -/
def hostRegRead (reg : Byte) (s : State) : State :=
  let r := ppuRegRead (PpuReg.ofIndex (reg.extractLsb' 0 3)) s
  emit (.regValue r.value) r.state

/-- `regWrite(reg, value)` (52_machine_and_host R802). -/
def hostRegWrite (reg value : Byte) (s : State) : State := ppuRegWrite (PpuReg.ofIndex (reg.extractLsb' 0 3)) value s

/-- `setInput(b)` (52_machine_and_host R804). -/
def hostSetInput (b : Byte) (s : State) : State := s.setPad { s.pad with input := b }

/-- `syncSave` (52_machine_and_host R821): the 8,192 PRG-RAM bytes go to the file from offset 0, if one is bound. -/
def hostSyncSave (s : State) : State :=
  match s.host.save with
  | none => s
  | some file => s.setHost { s.host with save := some (s.prgRam.toBytes 8192 ++ file.drop 8192) }

/-- `destroy` (52_machine_and_host R806): the save file is not flushed. -/
def hostDestroy (s : State) : State := s.setHost { s.host with alive := false }

/-- One host call on a live machine between batches (52_machine_and_host R800); `runCycles` runs the first round of its
batch, and a count of 0 or less runs nothing (D47). -/
def serve (c : HostCall) (s : State) : Out :=
  match c with
  | .runCycles n => runRound n.toNat (startRun n.toNat s)
  | .regRead r => .next (hostRegRead r s)
  | .regWrite r v => .next (hostRegWrite r v s)
  | .setInput b => .next (hostSetInput b s)
  | .syncSave => .next (hostSyncSave s)
  | .destroy => .next (hostDestroy s)

/-- The call the host makes next, and the state without it: the oldest listed one, or `runCycles` with its usual count. -/
def nextCall (s : State) : HostCall × State :=
  match s.host.calls with
  | [] => (.runCycles s.host.count, s)
  | c :: rest => (c, s.setHost { s.host with calls := rest })

/-- One step of the machine: the next round of the batch in progress, or the next host call (00_scope R17,
52_machine_and_host R803, R806, R807). -/
def stepMachine (s : State) : Out :=
  if !s.host.alive then .refused .useAfterDestroy
  else
    match s.host.running with
    | some n => runRound n s
    | none => serve (nextCall s).1 (nextCall s).2

end Sys2Proof.Machine
end

