-- ==== Sys2Proof/Machine/Step.lean ====
section
/-! DEFINITION. One step of the machine, and the placing of an instruction where the next step fetches it. -/

namespace Sys2Proof.Machine

/-- One step (00_scope R17, 31_decode_cache_and_run R302): one instruction or interrupt entry of the batch in progress,
with the PPU's dots when it ends the batch, or one host call. -/
def step (s : State) : Host.Outcome State Fault Refusal := stepMachine s

/-- `s` with the instruction whose bits are `w` (bits above `nbits` zero) stored where the next step fetches it, at PC. -/
def State.withFetchWord (s : State) (nbits w : Nat) : State :=
  placeInstruction (tableByte (w % 2 ^ nbits) 0) (tableByte (w % 2 ^ nbits) 1) (tableByte (w % 2 ^ nbits) 2) s

end Sys2Proof.Machine
end

