-- ==== Sys2Proof/Machine/Cartridge.lean ====
section
/-! DEFINITION. Loading a cartridge image (51_cartridge_mapper R701 to R703), the save file (52_machine_and_host R820), the
power-on reset (70_reset_and_hazards R950) and `create` (52_machine_and_host R801). -/

namespace Sys2Proof.Machine

/-- The errors of `create` (51_cartridge_mapper R703, 52_machine_and_host R801). -/
inductive LoadError where
  /-- A bad magic, a NES 2.0 exponent form, no PRG-ROM, or a truncated image. -/
  | badHeader
  /-- A mapper identifier that is not supported. -/
  | unknownMapper
  /-- The host could not read the image; `load` takes bytes and never gives it (D59). -/
  | ioError
  deriving DecidableEq, Repr

/-- Byte k of an image, 0 past its end. -/
def imageByte (h : List Byte) (k : Nat) : Byte := h.getD k 0

/-- The header's fields (51_cartridge_mapper R702). -/
structure Header where
  nes2 : Bool
  mapperId : Nat
  prgCount : Nat
  chrCount : Nat
  mirroring : Mirroring
  battery : Bool
  trainer : Bool
  deriving DecidableEq, Repr

/-- The magic `$4E $45 $53 $1A` (51_cartridge_mapper R701). -/
def magicOk (h : List Byte) : Bool :=
  imageByte h 0 = 0x4E && imageByte h 1 = 0x45 && imageByte h 2 = 0x53 && imageByte h 3 = 0x1A

/-- `nes2 = (h[7][3:2] = %10)` (51_cartridge_mapper R702). -/
def isNes2 (h : List Byte) : Bool := (imageByte h 7).extractLsb' 2 2 = 2

/-- Bits 11:8 of a NES 2.0 field, 0 in an iNES header. -/
def nes2High (h : List Byte) (k at' : Nat) : Nat :=
  if isNes2 h then ((imageByte h k).extractLsb' at' 4).toNat * 256 else 0

/-- The header fields of an image (51_cartridge_mapper R702). -/
def parseHeader (h : List Byte) : Header :=
  { nes2 := isNes2 h
    mapperId := ((imageByte h 6).extractLsb' 4 4).toNat + ((imageByte h 7).extractLsb' 4 4).toNat * 16 + nes2High h 8 0
    prgCount := (imageByte h 4).toNat + nes2High h 9 0
    chrCount := (imageByte h 5).toNat + nes2High h 9 4
    mirroring := if (imageByte h 6).getLsbD 0 then .vertical else .horizontal
    battery := (imageByte h 6).getLsbD 1
    trainer := (imageByte h 6).getLsbD 2 }

/-- A NES 2.0 size nibble of byte 9 is $F, the exponent form this hardware refuses (51_cartridge_mapper R702, D30). -/
def exponentForm (h : List Byte) : Bool :=
  isNes2 h && ((imageByte h 9).extractLsb' 0 4 = 0xF || (imageByte h 9).extractLsb' 4 4 = 0xF)

/-- Where the PRG-ROM bytes begin: after the header and the trainer (51_cartridge_mapper R703). -/
def Header.prgStart (h : Header) : Nat := 16 + (if h.trainer then 512 else 0)

/-- Where the CHR-ROM bytes begin. -/
def Header.chrStart (h : Header) : Nat := h.prgStart + 16384 * h.prgCount

/-- The least length of an image with this header (51_cartridge_mapper R703 check 5). -/
def Header.imageLength (h : Header) : Nat := h.chrStart + 8192 * h.chrCount

/-- A loaded cartridge: its header fields, its mapper variant and its ROM segments (51_cartridge_mapper R703). -/
structure Cartridge where
  info : CartInfo
  variant : Variant
  prgRom : Memory
  chrRom : Memory
  deriving DecidableEq, Repr

/-- The variant of a header, if its mapper is among the supported ones (51_cartridge_mapper R703 check 4). -/
def supportedVariant (c : Config) (h : Header) : Option Variant :=
  if c.supportedMappers.contains h.mapperId then Variant.ofId h.mapperId else none

/-- The cartridge that an image with header `h` holds (51_cartridge_mapper R703). -/
def cartridgeOf (h : Header) (v : Variant) (image : List Byte) : Cartridge :=
  { info := { prgCount := h.prgCount, chrCount := h.chrCount, battery := h.battery, headerMirroring := h.mirroring }
    variant := v
    prgRom := Memory.ofBytes 0 ((image.drop h.prgStart).take (16384 * h.prgCount))
    chrRom := Memory.ofBytes 0 ((image.drop h.chrStart).take (8192 * h.chrCount)) }

/-- `Load(image)`: the first check that fails decides the error (51_cartridge_mapper R703). -/
def load (c : Config) (image : List Byte) : Except LoadError Cartridge :=
  if image.length < 16 || !magicOk image then .error .badHeader
  else if exponentForm image then .error .badHeader
  else if (parseHeader image).prgCount = 0 then .error .badHeader
  else
    match supportedVariant c (parseHeader image) with
    | none => .error .unknownMapper
    | some v =>
      if image.length < (parseHeader image).imageLength then .error .badHeader
      else .ok (cartridgeOf (parseHeader image) v image)

/-- What the power-on reset draws (70_reset_and_hazards R950): `resetRegs`, the open flags, the VBlank flag and the
contents of every RAM. An argument of `create`, so that a statement about it holds for every value. -/
structure PowerOn where
  a : Byte
  x : Byte
  y : Byte
  /-- N, V, D, Z and C are taken from here; its bits U, B and I are not used. -/
  flags : Byte
  vblank : Bool
  ram : Memory
  prgRam : Memory
  chrRam : Memory
  ciram : Memory
  palette : Memory
  oam : Memory
  frame : Memory
  deriving DecidableEq, Repr

/-- Every draw of the power-on reset is 0. DESIGN CHOICE, log 1 and 2; unsafe. -/
def PowerOn.zero : PowerOn :=
  { a := 0, x := 0, y := 0, flags := 0, vblank := false, ram := [], prgRam := [], chrRam := [], ciram := [],
    palette := [], oam := [], frame := [] }

/-- P after reset: I = 1, U = 1, B = 0, the other flags drawn (70_reset_and_hazards R950). -/
def resetP (flags : Byte) : Byte := (flags &&& 0xCB) ||| 0x24

/-- Byte i of PRG-RAM is byte i of the file from address `a` on, for every i the file holds (52_machine_and_host R820). -/
def loadSave (file : List Byte) (a : Nat) (m : Memory) : Memory :=
  match file with
  | [] => m
  | d :: rest => loadSave rest (a + 1) (m.write a d)

/-- PRG-RAM at power-on: the bound save file's first 8,192 bytes, then draws (52_machine_and_host R820). -/
def resetPrgRam (save : Option (List Byte)) (drawn : Memory) : Memory :=
  match save with
  | none => drawn
  | some file => loadSave (file.take 8192) 0 drawn

/-- Steps 1 to 5 of the power-on reset, with PC still to be read (70_reset_and_hazards R950). -/
def beforeVector (c : Config) (cart : Cartridge) (save : Option (List Byte)) (d : PowerOn) : State :=
  { config := c, a := d.a, x := d.x, y := d.y, sp := 0xFD, p := resetP d.flags, pc := 0, cache := [], cur := none,
    cycles := 0, nmiLine := false, irqLine := false, ram := d.ram, prgRom := cart.prgRom,
    prgRam := resetPrgRam save d.prgRam, chrRom := cart.chrRom, chrRam := d.chrRam, ciram := d.ciram,
    palette := d.palette, oam := d.oam, frame := d.frame, ppu := { Ppu.reset with vblank := d.vblank },
    cart := cart.info, map := mapperReset cart.variant cart.info, pad := Pad.reset, draws := 0,
    host := HostPort.fresh save }

/-- The power-on reset (70_reset_and_hazards R950): step 6 reads PC at $FFFC through the windows step 5 set. -/
def powerOn (c : Config) (cart : Cartridge) (save : Option (List Byte)) (d : PowerOn) : State :=
  let s := beforeVector c cart save d
  s.setPc (memRead16 resetVector s).value

/-- The save file is bound when the header declares battery-backed PRG-RAM and the file opens
(52_machine_and_host R820). -/
def boundSave (cart : Cartridge) (file : Option (List Byte)) : Option (List Byte) :=
  if cart.info.battery then file else none

/-- `create(romImage)` (52_machine_and_host R801); `file` is the save file's bytes, none when it cannot be opened. -/
def create (c : Config) (image : List Byte) (file : Option (List Byte)) (d : PowerOn) : Except LoadError State :=
  match load c image with
  | .error e => .error e
  | .ok cart => .ok (powerOn c cart (boundSave cart file) d)

/-- The blank cartridge of `State.reset`: NROM, 32 KB of PRG-ROM and no CHR-ROM, every byte $00. DESIGN CHOICE, log 3. -/
def Cartridge.blank : Cartridge := { info := CartInfo.blank, variant := .nrom, prgRom := [], chrRom := [] }

end Sys2Proof.Machine
end

