-- ==== Sys2Proof/Safety.lean ====
section
/-! DEFINITION. The terms claims are made in: the invariants of the machine, what an operation leaves alone, and when a run
is safe. -/

namespace Sys2Proof.Machine

/-- Every memory is in its canonical form. -/
structure State.MemoriesCanonical (s : State) : Prop where
  ram : s.ram.wf = true
  prgRom : s.prgRom.wf = true
  prgRam : s.prgRam.wf = true
  chrRom : s.chrRom.wf = true
  chrRam : s.chrRam.wf = true
  ciram : s.ciram.wf = true
  palette : s.palette.wf = true
  oam : s.oam.wf = true
  frame : s.frame.wf = true

/-- Every memory lists addresses inside its size only (10_state R59). -/
structure State.MemoriesSized (s : State) : Prop where
  ram : s.ram.within 2048 = true
  prgRom : s.prgRom.within (16384 * s.cart.prgCount) = true
  prgRam : s.prgRam.within 8192 = true
  chrRom : s.chrRom.within (8192 * s.cart.chrCount) = true
  chrRam : s.chrRam.within 8192 = true
  ciram : s.ciram.within 2048 = true
  palette : s.palette.within 32 = true
  oam : s.oam.within 256 = true
  frame : s.frame.within 61440 = true

/-- Every palette cell and every pixel is a 6-bit console-palette index (10_state R59, 52_machine_and_host R805). -/
structure State.ColoursNarrow (s : State) : Prop where
  palette : ∀ c ∈ s.palette, c.2.toNat < 64
  frame : ∀ c ∈ s.frame, c.2.toNat < 64

/-- The register's own B and U bits are the fixed values of 10_state R54: reset gives them and every restore forces them. -/
def State.StatusFixed (s : State) : Prop := flagB s.p = false ∧ flagU s.p = true

/-- The raster counters are in range (50_ppu R640), in a machine whose parameters are well-formed. -/
def State.RasterInRange (s : State) : Prop :=
  s.config.wf = true ∧ s.ppu.line < s.config.linesPerFrame ∧ s.ppu.dot < s.config.dotsPerLine

/-- Slot 3 is PRG-RAM bank 0, slots 4 to 7 are windows into PRG-ROM, the CHR windows are windows into the cartridge's CHR
segment (51_cartridge_mapper R712, D50), and MMC1 has taken 0 to 4 bits (10_state R64). -/
structure State.WindowsFixed (s : State) : Prop where
  prg3 : s.map.prg3 = ⟨.prgRam, 0⟩
  prg : ∀ k : Fin 4, (s.map.prg.get k).seg = .prgRom
  chr : ∀ k : Fin 8, (s.map.chr.get k).seg = s.cart.chrSegment
  count : ∀ r, s.map.variant = .mmc1 r → r.count ≤ 4

/-- A micro-op is what the opcode map makes of its opcode byte (30_encoding R269, R270). -/
def opCoherent (m : MicroOp) : Prop := (m.kind, m.mode) = opcodeEntry m.opcode

/-- The keys of the cache rise strictly. -/
def keysRise : List (Word × Trace) → Prop
  | [] => True
  | [_] => True
  | a :: b :: rest => a.1.toNat < b.1.toNat ∧ keysRise (b :: rest)

/-- Every cached trace has the shape `Build` gives it, every micro-op in it is coherent, and the cursor names a place in a
cached trace, whose micro-op stands at PC, or just past its end (31_decode_cache_and_run R303 to R307). -/
structure State.CacheShaped (s : State) : Prop where
  keys : keysRise s.cache
  traces : ∀ e ∈ s.cache, e.2.wf e.1 = true ∧ ∀ m ∈ e.2.ops, opCoherent m
  cursor : ∀ k i, s.cur = some (k, i) → ∃ t, cacheLookup s.cache k = some t ∧ i ≤ t.ops.length ∧
    ∀ m, t.ops[i]? = some m → m.addr = s.pc

/-- A cached trace holds the bytes that memory holds now (31_decode_cache_and_run R310 trace-coherence, at one moment). -/
def State.TraceCoherent (s : State) : Prop :=
  ∀ e ∈ s.cache, ∀ m ∈ e.2.ops, decodeAt s m.addr = .ok m

/-- The invariant of the machine: every reachable state meets it. -/
structure State.Inv (s : State) : Prop where
  canonical : s.MemoriesCanonical
  sized : s.MemoriesSized
  narrow : s.ColoursNarrow
  status : s.StatusFixed
  raster : s.RasterInRange
  windows : s.WindowsFixed
  cache : s.CacheShaped

/-- Where the byte at a CPU address lies: in RAM, or in a segment, at an offset; none where the address is no memory. Two
addresses of one place read the same byte (20_memory R151, R152). -/
def placeOf (s : State) (a : Word) : Option (Option Segment × Nat) :=
  if a.toNat < 0x2000 then some (none, a.toNat % 2048)
  else if a.toNat < 0x6000 then none
  else if a.toNat < 0x8000 then some (some s.map.prg3.seg, s.cart.windowOffset s.map.prg3 a.toNat)
  else some (some (s.map.prgWindow a).seg, s.cart.windowOffset (s.map.prgWindow a) a.toNat)

/-- Nothing but the PPU's v, read buffer, VBlank flag and toggle, the controller's shift register and the count of draws
differs: all that a CPU read can change (20_memory R158). -/
structure OnlyRead (s t : State) : Prop where
  config : t.config = s.config
  a : t.a = s.a
  x : t.x = s.x
  y : t.y = s.y
  sp : t.sp = s.sp
  p : t.p = s.p
  pc : t.pc = s.pc
  cache : t.cache = s.cache
  cur : t.cur = s.cur
  cycles : t.cycles = s.cycles
  nmiLine : t.nmiLine = s.nmiLine
  irqLine : t.irqLine = s.irqLine
  ram : t.ram = s.ram
  prgRom : t.prgRom = s.prgRom
  prgRam : t.prgRam = s.prgRam
  chrRom : t.chrRom = s.chrRom
  chrRam : t.chrRam = s.chrRam
  ciram : t.ciram = s.ciram
  palette : t.palette = s.palette
  oam : t.oam = s.oam
  frame : t.frame = s.frame
  ppu : t.ppu = { s.ppu with
    v := t.ppu.v, readBuffer := t.ppu.readBuffer, vblank := t.ppu.vblank, w := t.ppu.w }
  cart : t.cart = s.cart
  map : t.map = s.map
  pad : t.pad = { s.pad with shift := t.pad.shift }
  host : t.host = s.host

/-- What no CPU write changes: the registers, the cache, the ROMs, the frame buffer, the header, the parameters and the
host's side (20_memory R151, R153). -/
structure OnlyWritten (s t : State) : Prop where
  config : t.config = s.config
  a : t.a = s.a
  x : t.x = s.x
  y : t.y = s.y
  sp : t.sp = s.sp
  p : t.p = s.p
  pc : t.pc = s.pc
  cache : t.cache = s.cache
  cur : t.cur = s.cur
  prgRom : t.prgRom = s.prgRom
  chrRom : t.chrRom = s.chrRom
  frame : t.frame = s.frame
  cart : t.cart = s.cart
  host : t.host = s.host

/-- The flags after `setNZ(r)`: Z and N from r, the other six bits as before (00_scope R14). -/
def FlagsFromResult (before after r : Byte) : Prop :=
  flagZ after = decide (r = 0) ∧ flagN after = r.getLsbD 7 ∧ flagC after = flagC before ∧ flagI after = flagI before ∧
    flagD after = flagD before ∧ flagB after = flagB before ∧ flagU after = flagU before ∧ flagV after = flagV before

/-- The flags after a shift: C as given, Z and N from r, the other five bits as before (41_arith_logic_shift R465). -/
def FlagsFromShift (before after r : Byte) (carry : Bool) : Prop :=
  flagC after = carry ∧ flagZ after = decide (r = 0) ∧ flagN after = r.getLsbD 7 ∧ flagI after = flagI before ∧
    flagD after = flagD before ∧ flagB after = flagB before ∧ flagU after = flagU before ∧ flagV after = flagV before

/-- Every bit of P but those listed is as before. -/
def OtherFlagsKept (before after : Byte) (written : List Nat) : Prop :=
  ∀ i < 8, i ∉ written → after.getLsbD i = before.getLsbD i

/-- A safe step: the machine goes on. -/
def State.GoesOn (s : State) : Prop := ∃ t, step s = .next t

/-- A safe run of k steps: none of them stops the machine. -/
def State.RunsFor (s : State) (k : Nat) : Prop := ∃ t, Sys2Proof.core.run k s = .next t

/-! ## Forms: the rows of the instruction rules' "Encoding" lines -/

/-- One form of an instruction, as its rule's "Encoding" line gives it: the instruction, its opcode byte, its base cycle
count, and what the statement needs to know of its operand. -/
structure Form (ω : Type) where
  instr : Instr
  opcode : Byte
  base : Nat
  operand : ω

/-- The operand bytes that follow the opcode byte, low byte first (30_encoding R250, R253). -/
def MemOperand.bytes : MemOperand → List Byte
  | .zp op | .zpx op | .zpy op | .izx op | .izy op => [op]
  | .abs op | .abx op | .aby op | .ind op => [lo op, hi op]

/-- The operand bytes that follow the opcode byte of a read. -/
def Source.bytes : Source → List Byte
  | .imm op => [op]
  | .mem m => m.bytes

/-- The form is encoded as its rule says: the opcode byte and these operand bytes decode to the instruction, and the
default cycle table holds its base count (30_encoding R269, R276). -/
def Form.Encoded {ω : Type} (f : Form ω) (operands : List Byte) : Prop :=
  decode (f.opcode :: operands) = .ok (f.instr, []) ∧ defaultConfig.cycleTable.getD f.opcode.toNat 0 = f.base

/-- The cycle count after an instruction that costs its table count and no more (31_decode_cache_and_run R311). -/
def Form.cycles {ω : Type} (f : Form ω) (s : State) : Nat := s.cycles + s.config.cycleTable.getD f.opcode.toNat 0

/-- The cycle count after a read: one more cycle where its address crossed a page (30_encoding R268). -/
def Form.readCycles (f : Form Source) (s : State) : Nat :=
  f.cycles s + (if (f.operand.load s).crossed = true ∧ s.config.pageCrossPenalty = true then 1 else 0)

/-- The address of the next instruction (10_state R52): past the opcode byte and the operand bytes. -/
def Form.after {ω : Type} (_ : Form ω) (operands : List Byte) (s : State) : Word :=
  s.pc + BitVec.ofNat 16 (1 + operands.length)

/-- What a read of an operand leaves alone: everything but the state of OnlyRead, and every byte of memory. -/
def ReadFrame (s t : State) : Prop := OnlyRead s t ∧ ∀ a, peek t a = peek s a

/-- The forms of LDA (R400), with operand byte b or operand word w. -/
def ldaForms (b : Byte) (w : Word) : List (Form Source) :=
  [⟨.ldaIzx b, 0xA1, 6, .mem (.izx b)⟩, ⟨.ldaZp b, 0xA5, 3, .mem (.zp b)⟩, ⟨.ldaImm b, 0xA9, 2, .imm b⟩,
   ⟨.ldaAbs w, 0xAD, 4, .mem (.abs w)⟩, ⟨.ldaIzy b, 0xB1, 5, .mem (.izy b)⟩, ⟨.ldaZpx b, 0xB5, 4, .mem (.zpx b)⟩,
   ⟨.ldaAby w, 0xB9, 4, .mem (.aby w)⟩, ⟨.ldaAbx w, 0xBD, 4, .mem (.abx w)⟩]

/-- The forms of LDX (R401), with operand byte b or operand word w. -/
def ldxForms (b : Byte) (w : Word) : List (Form Source) :=
  [⟨.ldxImm b, 0xA2, 2, .imm b⟩, ⟨.ldxZp b, 0xA6, 3, .mem (.zp b)⟩, ⟨.ldxAbs w, 0xAE, 4, .mem (.abs w)⟩,
   ⟨.ldxZpy b, 0xB6, 4, .mem (.zpy b)⟩, ⟨.ldxAby w, 0xBE, 4, .mem (.aby w)⟩]

/-- The forms of LDY (R402), with operand byte b or operand word w. -/
def ldyForms (b : Byte) (w : Word) : List (Form Source) :=
  [⟨.ldyImm b, 0xA0, 2, .imm b⟩, ⟨.ldyZp b, 0xA4, 3, .mem (.zp b)⟩, ⟨.ldyAbs w, 0xAC, 4, .mem (.abs w)⟩,
   ⟨.ldyZpx b, 0xB4, 4, .mem (.zpx b)⟩, ⟨.ldyAbx w, 0xBC, 4, .mem (.abx w)⟩]

/-- The forms of ADC (R450), with operand byte b or operand word w. -/
def adcForms (b : Byte) (w : Word) : List (Form Source) :=
  [⟨.adcIzx b, 0x61, 6, .mem (.izx b)⟩, ⟨.adcZp b, 0x65, 3, .mem (.zp b)⟩, ⟨.adcImm b, 0x69, 2, .imm b⟩,
   ⟨.adcAbs w, 0x6D, 4, .mem (.abs w)⟩, ⟨.adcIzy b, 0x71, 5, .mem (.izy b)⟩, ⟨.adcZpx b, 0x75, 4, .mem (.zpx b)⟩,
   ⟨.adcAby w, 0x79, 4, .mem (.aby w)⟩, ⟨.adcAbx w, 0x7D, 4, .mem (.abx w)⟩]

/-- The forms of SBC (R451), with operand byte b or operand word w. -/
def sbcForms (b : Byte) (w : Word) : List (Form Source) :=
  [⟨.sbcIzx b, 0xE1, 6, .mem (.izx b)⟩, ⟨.sbcZp b, 0xE5, 3, .mem (.zp b)⟩, ⟨.sbcImm b, 0xE9, 2, .imm b⟩,
   ⟨.sbcAbs w, 0xED, 4, .mem (.abs w)⟩, ⟨.sbcIzy b, 0xF1, 5, .mem (.izy b)⟩, ⟨.sbcZpx b, 0xF5, 4, .mem (.zpx b)⟩,
   ⟨.sbcAby w, 0xF9, 4, .mem (.aby w)⟩, ⟨.sbcAbx w, 0xFD, 4, .mem (.abx w)⟩]

/-- The forms of AND (R452), with operand byte b or operand word w. -/
def andForms (b : Byte) (w : Word) : List (Form Source) :=
  [⟨.andIzx b, 0x21, 6, .mem (.izx b)⟩, ⟨.andZp b, 0x25, 3, .mem (.zp b)⟩, ⟨.andImm b, 0x29, 2, .imm b⟩,
   ⟨.andAbs w, 0x2D, 4, .mem (.abs w)⟩, ⟨.andIzy b, 0x31, 5, .mem (.izy b)⟩, ⟨.andZpx b, 0x35, 4, .mem (.zpx b)⟩,
   ⟨.andAby w, 0x39, 4, .mem (.aby w)⟩, ⟨.andAbx w, 0x3D, 4, .mem (.abx w)⟩]

/-- The forms of ORA (R453), with operand byte b or operand word w. -/
def oraForms (b : Byte) (w : Word) : List (Form Source) :=
  [⟨.oraIzx b, 0x01, 6, .mem (.izx b)⟩, ⟨.oraZp b, 0x05, 3, .mem (.zp b)⟩, ⟨.oraImm b, 0x09, 2, .imm b⟩,
   ⟨.oraAbs w, 0x0D, 4, .mem (.abs w)⟩, ⟨.oraIzy b, 0x11, 5, .mem (.izy b)⟩, ⟨.oraZpx b, 0x15, 4, .mem (.zpx b)⟩,
   ⟨.oraAby w, 0x19, 4, .mem (.aby w)⟩, ⟨.oraAbx w, 0x1D, 4, .mem (.abx w)⟩]

/-- The forms of EOR (R454), with operand byte b or operand word w. -/
def eorForms (b : Byte) (w : Word) : List (Form Source) :=
  [⟨.eorIzx b, 0x41, 6, .mem (.izx b)⟩, ⟨.eorZp b, 0x45, 3, .mem (.zp b)⟩, ⟨.eorImm b, 0x49, 2, .imm b⟩,
   ⟨.eorAbs w, 0x4D, 4, .mem (.abs w)⟩, ⟨.eorIzy b, 0x51, 5, .mem (.izy b)⟩, ⟨.eorZpx b, 0x55, 4, .mem (.zpx b)⟩,
   ⟨.eorAby w, 0x59, 4, .mem (.aby w)⟩, ⟨.eorAbx w, 0x5D, 4, .mem (.abx w)⟩]

/-- The forms of BIT (R455), with operand byte b or operand word w. -/
def bitForms (b : Byte) (w : Word) : List (Form Source) :=
  [⟨.bitZp b, 0x24, 3, .mem (.zp b)⟩, ⟨.bitAbs w, 0x2C, 4, .mem (.abs w)⟩]

/-- The forms of CMP (R456), with operand byte b or operand word w. -/
def cmpForms (b : Byte) (w : Word) : List (Form Source) :=
  [⟨.cmpIzx b, 0xC1, 6, .mem (.izx b)⟩, ⟨.cmpZp b, 0xC5, 3, .mem (.zp b)⟩, ⟨.cmpImm b, 0xC9, 2, .imm b⟩,
   ⟨.cmpAbs w, 0xCD, 4, .mem (.abs w)⟩, ⟨.cmpIzy b, 0xD1, 5, .mem (.izy b)⟩, ⟨.cmpZpx b, 0xD5, 4, .mem (.zpx b)⟩,
   ⟨.cmpAby w, 0xD9, 4, .mem (.aby w)⟩, ⟨.cmpAbx w, 0xDD, 4, .mem (.abx w)⟩]

/-- The forms of CPX (R457), with operand byte b or operand word w. -/
def cpxForms (b : Byte) (w : Word) : List (Form Source) :=
  [⟨.cpxImm b, 0xE0, 2, .imm b⟩, ⟨.cpxZp b, 0xE4, 3, .mem (.zp b)⟩, ⟨.cpxAbs w, 0xEC, 4, .mem (.abs w)⟩]

/-- The forms of CPY (R458), with operand byte b or operand word w. -/
def cpyForms (b : Byte) (w : Word) : List (Form Source) :=
  [⟨.cpyImm b, 0xC0, 2, .imm b⟩, ⟨.cpyZp b, 0xC4, 3, .mem (.zp b)⟩, ⟨.cpyAbs w, 0xCC, 4, .mem (.abs w)⟩]

/-- The forms of STA (R403), with operand byte b or operand word w. -/
def staForms (b : Byte) (w : Word) : List (Form MemOperand) :=
  [⟨.staIzx b, 0x81, 6, .izx b⟩, ⟨.staZp b, 0x85, 3, .zp b⟩, ⟨.staAbs w, 0x8D, 4, .abs w⟩,
   ⟨.staIzy b, 0x91, 6, .izy b⟩, ⟨.staZpx b, 0x95, 4, .zpx b⟩, ⟨.staAby w, 0x99, 5, .aby w⟩,
   ⟨.staAbx w, 0x9D, 5, .abx w⟩]

/-- The forms of STX (R404), with operand byte b or operand word w. -/
def stxForms (b : Byte) (w : Word) : List (Form MemOperand) :=
  [⟨.stxZp b, 0x86, 3, .zp b⟩, ⟨.stxAbs w, 0x8E, 4, .abs w⟩, ⟨.stxZpy b, 0x96, 4, .zpy b⟩]

/-- The forms of STY (R405), with operand byte b or operand word w. -/
def styForms (b : Byte) (w : Word) : List (Form MemOperand) :=
  [⟨.styZp b, 0x84, 3, .zp b⟩, ⟨.styAbs w, 0x8C, 4, .abs w⟩, ⟨.styZpx b, 0x94, 4, .zpx b⟩]

/-- The memory forms of INC (R459), with operand byte b or operand word w. -/
def incForms (b : Byte) (w : Word) : List (Form MemOperand) :=
  [⟨.incZp b, 0xE6, 5, .zp b⟩, ⟨.incAbs w, 0xEE, 6, .abs w⟩, ⟨.incZpx b, 0xF6, 6, .zpx b⟩,
   ⟨.incAbx w, 0xFE, 7, .abx w⟩]

/-- The memory forms of DEC (R460), with operand byte b or operand word w. -/
def decForms (b : Byte) (w : Word) : List (Form MemOperand) :=
  [⟨.decZp b, 0xC6, 5, .zp b⟩, ⟨.decAbs w, 0xCE, 6, .abs w⟩, ⟨.decZpx b, 0xD6, 6, .zpx b⟩,
   ⟨.decAbx w, 0xDE, 7, .abx w⟩]

/-- The memory forms of ASL (R465), with operand byte b or operand word w. -/
def aslForms (b : Byte) (w : Word) : List (Form MemOperand) :=
  [⟨.aslZp b, 0x06, 5, .zp b⟩, ⟨.aslAbs w, 0x0E, 6, .abs w⟩, ⟨.aslZpx b, 0x16, 6, .zpx b⟩,
   ⟨.aslAbx w, 0x1E, 7, .abx w⟩]

/-- The memory forms of LSR (R466), with operand byte b or operand word w. -/
def lsrForms (b : Byte) (w : Word) : List (Form MemOperand) :=
  [⟨.lsrZp b, 0x46, 5, .zp b⟩, ⟨.lsrAbs w, 0x4E, 6, .abs w⟩, ⟨.lsrZpx b, 0x56, 6, .zpx b⟩,
   ⟨.lsrAbx w, 0x5E, 7, .abx w⟩]

/-- The memory forms of ROL (R467), with operand byte b or operand word w. -/
def rolForms (b : Byte) (w : Word) : List (Form MemOperand) :=
  [⟨.rolZp b, 0x26, 5, .zp b⟩, ⟨.rolAbs w, 0x2E, 6, .abs w⟩, ⟨.rolZpx b, 0x36, 6, .zpx b⟩,
   ⟨.rolAbx w, 0x3E, 7, .abx w⟩]

/-- The memory forms of ROR (R468), with operand byte b or operand word w. -/
def rorForms (b : Byte) (w : Word) : List (Form MemOperand) :=
  [⟨.rorZp b, 0x66, 5, .zp b⟩, ⟨.rorAbs w, 0x6E, 6, .abs w⟩, ⟨.rorZpx b, 0x76, 6, .zpx b⟩,
   ⟨.rorAbx w, 0x7E, 7, .abx w⟩]

/-- Every form that stores to the address its operand names: the stores and the read-modify-writes of memory
(30_encoding R254). -/
def storingForms (b : Byte) (w : Word) : List (Form MemOperand) :=
  staForms b w ++ stxForms b w ++ styForms b w ++ incForms b w ++ decForms b w ++ aslForms b w ++ lsrForms b w ++
    rolForms b w ++ rorForms b w

/-- The 105 undefined opcode bytes of 30_encoding R271. -/
def undefinedOpcodes : List Byte :=
  [0x02, 0x03, 0x04, 0x07, 0x0B, 0x0C, 0x0F, 0x12, 0x13, 0x14, 0x17, 0x1A, 0x1B, 0x1C, 0x1F] ++
  [0x22, 0x23, 0x27, 0x2B, 0x2F, 0x32, 0x33, 0x34, 0x37, 0x3A, 0x3B, 0x3C, 0x3F] ++
  [0x42, 0x43, 0x44, 0x47, 0x4B, 0x4F, 0x52, 0x53, 0x54, 0x57, 0x5A, 0x5B, 0x5C, 0x5F] ++
  [0x62, 0x63, 0x64, 0x67, 0x6B, 0x6F, 0x72, 0x73, 0x74, 0x77, 0x7A, 0x7B, 0x7C, 0x7F] ++
  [0x80, 0x82, 0x83, 0x87, 0x89, 0x8B, 0x8F, 0x92, 0x93, 0x97, 0x9B, 0x9C, 0x9E, 0x9F] ++
  [0xA3, 0xA7, 0xAB, 0xAF, 0xB2, 0xB3, 0xB7, 0xBB, 0xBF] ++
  [0xC2, 0xC3, 0xC7, 0xCB, 0xCF, 0xD2, 0xD3, 0xD4, 0xD7, 0xDA, 0xDB, 0xDC, 0xDF] ++
  [0xE2, 0xE3, 0xE7, 0xEB, 0xEF, 0xF2, 0xF3, 0xF4, 0xF7, 0xFA, 0xFB, 0xFC, 0xFF]

/-! ## The cost of an instruction (31_decode_cache_and_run R311) -/

/-- The effective-address form of an instruction's operand, where its mode has one (30_encoding R258 to R266). -/
def memOperandOf (i : Instr) : Option MemOperand :=
  match i.mode with
  | .zp => some (.zp (lo i.operand))
  | .zpx => some (.zpx (lo i.operand))
  | .zpy => some (.zpy (lo i.operand))
  | .abs => some (.abs i.operand)
  | .abx => some (.abx i.operand)
  | .aby => some (.aby i.operand)
  | .ind => some (.ind i.operand)
  | .izx => some (.izx (lo i.operand))
  | .izy => some (.izy (lo i.operand))
  | .imp | .acc | .imm | .rel => none

/-- The read class of 30_encoding R254. -/
def isReadKind (k : Kind) : Bool :=
  [.lda, .ldx, .ldy, .adc, .sbc, .and, .ora, .eor, .cmp, .cpx, .cpy, .bit].contains k

/-- The write and the read-modify-write class of 30_encoding R254. -/
def isStoreKind (k : Kind) : Bool := [.sta, .stx, .sty, .asl, .lsr, .rol, .ror, .inc, .dec].contains k

/-- The condition of a branch in a status byte (42_control_flags_misc R501 to R508); no other kind has one. -/
def branchTaken (k : Kind) (p : Byte) : Bool :=
  match k with
  | .bcc => !p.getLsbD 0
  | .bcs => p.getLsbD 0
  | .bne => !p.getLsbD 1
  | .beq => p.getLsbD 1
  | .bpl => !p.getLsbD 7
  | .bmi => p.getLsbD 7
  | .bvc => !p.getLsbD 6
  | .bvs => p.getLsbD 6
  | _ => false

/-- The page-cross cycle of a read in abx, aby or izy (30_encoding R268). -/
def pageCrossCycles (i : Instr) (s : State) : Nat :=
  match memOperandOf i with
  | some m =>
    if isReadKind i.kind ∧ (i.mode = .abx ∨ i.mode = .aby ∨ i.mode = .izy) ∧ (m.ea s).crossed = true ∧
      s.config.pageCrossPenalty = true then 1 else 0
  | none => 0

/-- The cost of a taken branch beyond its base (42_control_flags_misc R500). -/
def branchCycles (i : Instr) (s : State) : Nat :=
  if branchTaken i.kind s.p then
    (if (s.pc + 2 + (lo i.operand).signExtend 16).toNat / 256 ≠ (s.pc + 2).toNat / 256 then 2 else 1)
  else 0

/-- The cost of a write to $4014 (50_ppu R606). -/
def dmaCycles (i : Instr) (s : State) : Nat :=
  match memOperandOf i with
  | some m => if isStoreKind i.kind ∧ (m.ea s).addr = 0x4014 then s.config.oamDmaCycles else 0
  | none => 0

/-! ## Sequences -/

/-- An access to a PPU register, by the CPU or by the host (50_ppu R600). -/
inductive RegAccess where
  | read (r : PpuReg)
  | write (r : PpuReg) (d : Byte)
  deriving DecidableEq, Repr

/-- The state after one register access. -/
def RegAccess.run (x : RegAccess) (s : State) : State :=
  match x with
  | .read r => (ppuRegRead r s).state
  | .write r d => ppuRegWrite r d s

/-- The state after register accesses, the first of the list first. -/
def runAccesses (l : List RegAccess) (s : State) : State := l.foldl (fun t x => x.run t) s

/-- A read of PPUSTATUS. -/
def RegAccess.isStatusRead (x : RegAccess) : Bool := decide (x = .read .status)

/-- A write to PPUSCROLL or PPUADDR. -/
def RegAccess.isToggleWrite (x : RegAccess) : Bool :=
  match x with
  | .write .scroll _ | .write .addr _ => true
  | _ => false

/-- How many writes to PPUSCROLL or PPUADDR come after the last read of PPUSTATUS (50_ppu R609). -/
def toggleWrites (l : List RegAccess) : Nat :=
  ((l.reverse.takeWhile (fun x => !x.isStatusRead)).filter RegAccess.isToggleWrite).length

/-- MMC3's state and the IRQ line after k clocks with no CPU write between them (51_cartridge_mapper R742, R743). -/
def mmc3Clocks (k : Nat) (r : Mmc3) (line : Bool) : Mmc3 × Bool :=
  match k with
  | 0 => (r, line)
  | n + 1 => ((mmc3Clocks n r line).1.clock, (mmc3Clocks n r line).2 || (mmc3Clocks n r line).1.asserts)

/-- MMC1's register state after the given register writes, the first of the list first (51_cartridge_mapper R723). -/
def mmc1Writes (l : List (Word × Byte)) (c : Segment) (m : MapperState) : MapperState :=
  l.foldl (fun t x => match t.variant with | .mmc1 r => mmc1Write r c x.1 x.2 t | _ => t) m

/-- The controller after k reads of $4016 (52_machine_and_host R810). -/
def padReads (k : Nat) (p : Pad) : Pad :=
  match k with
  | 0 => p
  | n + 1 => (padReads n p).afterRead

/-- The number of a mapper variant (00_scope R3). -/
def Variant.number (v : Variant) : Nat :=
  match v with
  | .nrom => 0
  | .mmc1 _ => 1
  | .uxrom => 2
  | .cnrom => 3
  | .mmc3 _ => 4
  | .axrom => 7

/-- 41_arith_logic_shift R465 to R468: the result and the carry of ASL, LSR, ROL and ROR of a byte with a carry. -/
def shiftForms (b : Byte) (w : Word) : List (Form MemOperand × (Byte → Bool → Byte × Bool)) :=
  (aslForms b w).map (fun f => (f, fun (m : Byte) (_ : Bool) => (m <<< 1, m.getLsbD 7))) ++
  (lsrForms b w).map (fun f => (f, fun (m : Byte) (_ : Bool) => (m >>> 1, m.getLsbD 0))) ++
  (rolForms b w).map (fun f => (f, fun (m : Byte) (c : Bool) => ((m <<< 1) ||| (if c then 0x01 else 0), m.getLsbD 7))) ++
  (rorForms b w).map (fun f => (f, fun (m : Byte) (c : Bool) => ((if c then 0x80 else 0) ||| (m >>> 1), m.getLsbD 0)))

/-- What the vector at CPU address `a` holds, low byte first, through the current windows (20_memory R155). -/
def vectorAt (s : State) (a : Nat) : Word :=
  BitVec.ofNat 16 ((windowRead s (s.map.prg.get 3) (a + 1)).toNat * 256 + (windowRead s (s.map.prg.get 3) a).toNat)

/-- RAM after an exception pushed a return address, high byte first, and a status byte (60_exceptions R916). -/
def exceptionStack (s : State) (ret : Word) (status : Byte) : Memory :=
  ((s.ram.write (0x100 + s.sp.toNat) (BitVec.ofNat 8 (ret.toNat / 256))).write
    (0x100 + (s.sp - 1).toNat) (BitVec.ofNat 8 ret.toNat)).write (0x100 + (s.sp - 2).toNat) status

end Sys2Proof.Machine
end

