-- ==== Sys2Proof/Certificates/Slice0/Obligations.lean ====
section
/-! DEFINITION. The statements for the provers, each a proposition about the model, with the rules of spec/ it formalises. -/

open Sys2Proof Sys2Proof.Machine

/-! ## Encoding -/

/-- A few bytes written out from 30_encoding R253 and R269 decode to the instructions they stand for. -/
def Obligations.DecodesWrittenWords : Prop :=
  decode [0xA9, 0x80] = .ok (.ldaImm 0x80, []) ∧ decode [0x8E, 0x00, 0x02] = .ok (.stxAbs 0x0200, []) ∧
    decode [0x71, 0x20] = .ok (.adcIzy 0x20, []) ∧ decode [0x6C, 0xFF, 0x02] = .ok (.jmpInd 0x02FF, []) ∧
    decode [0x0A] = .ok (.aslAcc, []) ∧ decode [0xF0, 0xFE] = .ok (.beq 0xFE, []) ∧
    decode [0x00] = .ok (.brk, []) ∧ decode [0x9A] = .ok (.txs, []) ∧
    decode [0x3E, 0x34, 0x12] = .ok (.rolAbx 0x1234, []) ∧ decode [0xB6, 0xFF] = .ok (.ldxZpy 0xFF, [])

/-- Decoding the bytes of any instruction gives the instruction back, with every operand, whatever bytes follow
(30_encoding R250, R251, R253, R269). -/
def Obligations.DecodeOfEncode : Prop :=
  ∀ (i : Instr) (rest : List Byte), decode (encode i ++ rest) = .ok (i, rest)

/-- What the decoder reads as an instruction are that instruction's bytes: no two encodings decode to one instruction. -/
def Obligations.EncodeOfDecode : Prop :=
  ∀ (bytes rest : List Byte) (i : Instr), decode bytes = .ok (i, rest) → bytes = encode i ++ rest

/-- 30_encoding R271: exactly the 105 listed bytes decode to a micro-op of kind `Undefined`; it has length 1 and ends its
trace, and executing it raises the fault with its opcode and address. A fault has no next state, so it makes no access. -/
def Obligations.UndefinedOpcodesFault : Prop :=
  undefinedOpcodes.length = 105 ∧
    ∀ (a : Word) (b0 b1 b2 : Byte) (s : State),
      ((microOpOf a b0 b1 b2).kind = .undefined ↔ b0 ∈ undefinedOpcodes) ∧
      (b0 ∈ undefinedOpcodes →
        (microOpOf a b0 b1 b2).len = 1 ∧ (microOpOf a b0 b1 b2).endsTrace = true ∧
          execute (microOpOf a b0 b1 b2) s = .fault (.undefinedOpcode b0 a))

/-- The micro-op of 30_encoding R270: its address and opcode, the length of its mode (R251), and its operand put together
little-endian from the operand bytes, 0 where there is none (R253). Where its kind is not `Undefined` it dispatches to one
instruction, which has that opcode, kind and mode (R273); a pair with no row raises `DispatchMiss`. -/
def Obligations.MicroOpsAssembleAndDispatch : Prop :=
  (∀ (a : Word) (b0 b1 b2 : Byte),
    (microOpOf a b0 b1 b2).addr = a ∧ (microOpOf a b0 b1 b2).opcode = b0 ∧
      ((microOpOf a b0 b1 b2).kind, (microOpOf a b0 b1 b2).mode) = opcodeEntry b0 ∧
      (microOpOf a b0 b1 b2).len =
        (match (microOpOf a b0 b1 b2).mode with
          | .imp | .acc => 1
          | .imm | .zp | .zpx | .zpy | .rel | .izx | .izy => 2
          | .abs | .abx | .aby | .ind => 3) ∧
      ((microOpOf a b0 b1 b2).len = 1 → (microOpOf a b0 b1 b2).operand = 0) ∧
      ((microOpOf a b0 b1 b2).len = 2 → (microOpOf a b0 b1 b2).operand.toNat = b1.toNat) ∧
      ((microOpOf a b0 b1 b2).len = 3 → (microOpOf a b0 b1 b2).operand.toNat = b2.toNat * 256 + b1.toNat)) ∧
  (∀ (a : Word) (b0 b1 b2 : Byte) (s : State), (microOpOf a b0 b1 b2).kind ≠ .undefined →
    ∃ i, microOpOf a b0 b1 b2 = i.microOp a ∧ execute (microOpOf a b0 b1 b2) s = exec i s) ∧
  (∀ (m : MicroOp) (s : State), m.kind ≠ .undefined → m.instr = none →
    execute m s = .fault (.dispatchMiss m.kind m.mode))

/-! ## Operands -/

/-- 30_encoding R257 to R261, R264 and R265, in arithmetic on naturals: no pointer read, so the state is as before; page
crossing is the high bytes differing. -/
def Obligations.EffectiveAddresses : Prop :=
  ∀ (op : Byte) (w : Word) (s : State),
    (Source.imm op).load s = { value := op, crossed := false, state := s } ∧
    ((MemOperand.zp op).ea s).addr.toNat = op.toNat ∧
    ((MemOperand.zpx op).ea s).addr.toNat = (op.toNat + s.x.toNat) % 256 ∧
    ((MemOperand.zpy op).ea s).addr.toNat = (op.toNat + s.y.toNat) % 256 ∧
    ((MemOperand.abs w).ea s).addr = w ∧
    ((MemOperand.abx w).ea s).addr.toNat = (w.toNat + s.x.toNat) % 65536 ∧
    ((MemOperand.aby w).ea s).addr.toNat = (w.toNat + s.y.toNat) % 65536 ∧
    (((MemOperand.abx w).ea s).crossed = true ↔ (w.toNat + s.x.toNat) % 65536 / 256 ≠ w.toNat / 256) ∧
    (((MemOperand.aby w).ea s).crossed = true ↔ (w.toNat + s.y.toNat) % 65536 / 256 ≠ w.toNat / 256) ∧
    (∀ m ∈ [MemOperand.zp op, .zpx op, .zpy op, .abs w], (m.ea s).crossed = false) ∧
    (∀ m ∈ [MemOperand.zp op, .zpx op, .zpy op, .abs w, .abx w, .aby w], (m.ea s).state = s)

/-- 30_encoding R262, R263 and R266: the two pointer reads, where the second one wraps, and the address they give. -/
def Obligations.PointerAddresses : Prop :=
  ∀ (op : Byte) (w : Word) (s : State),
    (let l := memRead (BitVec.ofNat 16 ((op.toNat + s.x.toNat) % 256)) s
     let h := memRead (BitVec.ofNat 16 (((op.toNat + s.x.toNat) % 256 + 1) % 256)) l.state
     let e := (MemOperand.izx op).ea s
     e.addr.toNat = h.value.toNat * 256 + l.value.toNat ∧ e.crossed = false ∧ e.state = h.state ∧ e.state = s) ∧
    (let l := memRead (BitVec.ofNat 16 op.toNat) s
     let h := memRead (BitVec.ofNat 16 ((op.toNat + 1) % 256)) l.state
     let base := h.value.toNat * 256 + l.value.toNat
     let e := (MemOperand.izy op).ea s
     e.addr.toNat = (base + s.y.toNat) % 65536 ∧ (e.crossed = true ↔ (base + s.y.toNat) % 65536 / 256 ≠ base / 256) ∧
       e.state = h.state ∧ e.state = s) ∧
    (let l := memRead w s
     let h := memRead (BitVec.ofNat 16 (w.toNat / 256 * 256 + (w.toNat + 1) % 256)) l.state
     let e := (MemOperand.ind w).ea s
     e.addr.toNat = h.value.toNat * 256 + l.value.toNat ∧ e.crossed = false ∧ e.state = h.state)

/-- 31_decode_cache_and_run R311 with 30_encoding R268: every instruction costs its table count, one more for a read in
abx, aby or izy that crosses a page, the branch penalty, and `oamDmaCycles` where it wrote $4014. -/
def Obligations.CostOfEveryInstruction : Prop :=
  ∀ (i : Instr) (s t : State), exec i s = .next t →
    t.cycles = s.cycles + s.config.cycleTable.getD i.opcode.toNat 0 + pageCrossCycles i s + branchCycles i s + dmaCycles i s

/-! ## The buses -/

/-- 20_memory R151, R154 and 50_ppu R600: what a CPU read and a CPU write of each row of the address map do, for every
place of the end of the PPU register window. A draw is the next free value, and the count of draws rises. -/
def Obligations.CpuAddressMap : Prop :=
  ∀ (s : State) (a : Word) (d : Byte), s.config.wf = true →
    (a.toNat < 0x2000 →
      memRead a s = { value := s.ram.read (a.toNat % 0x800), state := s } ∧
      memWrite a d s = { s with ram := s.ram.write (a.toNat % 0x800) d }) ∧
    (0x2000 ≤ a.toNat → a.toNat ≤ s.config.ppuRegWindowEnd.toNat →
      ∀ r ∈ [PpuReg.ctrl, .mask, .status, .oamAddr, .oamData, .scroll, .addr, .data][a.toNat % 8]?,
        memRead a s = ppuRegRead r s ∧ memWrite a d s = ppuRegWrite r d s) ∧
    ((s.config.ppuRegWindowEnd.toNat < a.toNat ∧ a.toNat ≤ 0x3FFF) ∨
        (0x4000 ≤ a.toNat ∧ a.toNat ≤ 0x5FFF ∧ a.toNat ≠ 0x4014 ∧ a.toNat ≠ 0x4016 ∧ a.toNat ≠ 0x4017) →
      memRead a s = { value := Config.draw s.draws, state := { s with draws := s.draws + 1 } } ∧ memWrite a d s = s) ∧
    (a.toNat = 0x4014 →
      memRead a s = { value := Config.draw s.draws, state := { s with draws := s.draws + 1 } } ∧
      memWrite a d s = oamDma d s) ∧
    (a.toNat = 0x4016 → memRead a s = padRead s ∧ memWrite a d s = { s with pad := s.pad.afterWrite d }) ∧
    (a.toNat = 0x4017 →
      (memRead a s).value.getLsbD 0 = false ∧
      (∀ i, 1 ≤ i → i < 8 → (memRead a s).value.getLsbD i = (Config.draw s.draws).getLsbD i) ∧
      (memRead a s).state = { s with draws := s.draws + 1 } ∧ memWrite a d s = s) ∧
    (0x6000 ≤ a.toNat → a.toNat ≤ 0x7FFF →
      memRead a s = { value := windowRead s s.map.prg3 a.toNat, state := s } ∧
      memWrite a d s = windowWrite s.map.prg3 a.toNat d s) ∧
    (∀ k : Fin 4, a.toNat / 0x2000 = 4 + k.val →
      memRead a s = { value := windowRead s (s.map.prg.get k) a.toNat, state := s } ∧ memWrite a d s = mapperWrite a d s)

/-- 20_memory R158: a CPU read changes only v, the read buffer, the VBlank flag, the toggle, the controller's shift register
and the count of draws, and no byte of memory; and but for $2002, $2007 and their mirrors and $4016 it changes nothing (save
that count, where it gives a draw). -/
def Obligations.CpuReadsChangeOnlyDeviceState : Prop :=
  ∀ (a : Word) (s : State),
    OnlyRead s (memRead a s).state ∧ (∀ c, peek (memRead a s).state c = peek s c) ∧
    ((0x2000 ≤ a.toNat ∧ a.toNat < 0x4000 ∧ (a.toNat % 8 = 2 ∨ a.toNat % 8 = 7)) ∨ a.toNat = 0x4016 ∨
      (memRead a s).state = s ∨ (memRead a s).state = { s with draws := s.draws + 1 }) ∧
    (∀ b, peek s a = some b → memRead a s = { value := b, state := s })

/-- 20_memory R151 to R153, R164: a byte stored below $8000 where there is memory reads back at every address of the same
place (the RAM mirrors), and no other byte changes. -/
def Obligations.StoredByteReadsBack : Prop :=
  ∀ (s : State) (a b : Word) (d : Byte), s.MemoriesCanonical → s.WindowsFixed → a.toNat < 0x8000 →
    (peek s a).isSome = true →
    peek (memWrite a d s) b = (if placeOf s b = placeOf s a then some d else peek s b)

/-- 51_cartridge_mapper R710 and 20_memory R152, R153: a bank index is taken modulo the bank count, negative ones from the
end; a window names the byte at bank times bank size plus the address within the bank; a write stores in a RAM segment and
leaves a ROM segment as it is. -/
def Obligations.WindowsResolveAfresh : Prop :=
  (∀ (n : Nat) (i : Int), 1 ≤ n →
    bankIndex n i < n ∧ (bankIndex n i : Int) = i % n ∧ bankIndex n (-1) = bankIndex n ((n : Int) - 1) ∧
      bankIndex n (-1) = n - 1) ∧
  (∀ (s : State) (i : Int) (a : Nat) (d : Byte),
    windowRead s ⟨.prgRom, i⟩ a = s.prgRom.read (bankIndex (2 * s.cart.prgCount) i * 8192 + a % 8192) ∧
    windowRead s ⟨.prgRam, i⟩ a = s.prgRam.read (bankIndex 1 i * 8192 + a % 8192) ∧
    windowRead s ⟨.chrRom, i⟩ a = s.chrRom.read (bankIndex (8 * s.cart.chrCount) i * 1024 + a % 1024) ∧
    windowRead s ⟨.chrRam, i⟩ a = s.chrRam.read (bankIndex 8 i * 1024 + a % 1024) ∧
    windowWrite ⟨.prgRam, i⟩ a d s = { s with prgRam := s.prgRam.write (bankIndex 1 i * 8192 + a % 8192) d } ∧
    windowWrite ⟨.chrRam, i⟩ a d s = { s with chrRam := s.chrRam.write (bankIndex 8 i * 1024 + a % 1024) d } ∧
    windowWrite ⟨.prgRom, i⟩ a d s = s ∧ windowWrite ⟨.chrRom, i⟩ a d s = s) ∧
  (∀ (s : State) (a : Word) (d : Byte), 0x8000 ≤ a.toNat →
    memWrite a d s = mapperWrite a d s ∧ (memWrite a d s).prgRom = s.prgRom ∧ (memWrite a d s).prgRam = s.prgRam)

/-- 20_memory R159 to R162: the PPU address map, the mirroring table, and the palette index with its mirrors. That a palette
write keeps six bits of `d & paletteMask` is the model's choice of form for a cell of six bits (log entry 10, DESIGN CHOICE;
20_memory R161, 10_state R59). -/
def Obligations.PpuAddressMap : Prop :=
  ∀ (s : State) (a : VAddr) (d : Byte),
    (∀ k : Fin 8, a.toNat / 0x400 = k.val →
      vRead s a = windowRead s (s.map.chr.get k) a.toNat ∧ vWrite a d s = windowWrite (s.map.chr.get k) a.toNat d s) ∧
    (0x2000 ≤ a.toNat → a.toNat < 0x3F00 →
      let page := (match s.map.mirroring with
        | .singleLow => [0, 0, 0, 0]
        | .singleHigh => [1, 1, 1, 1]
        | .horizontal => [0, 0, 1, 1]
        | .vertical => [0, 1, 0, 1]).getD (a.toNat / 0x400 % 4) 0
      vRead s a = s.ciram.read (page * 1024 + a.toNat % 0x400) ∧
      vWrite a d s = { s with ciram := s.ciram.write (page * 1024 + a.toNat % 0x400) d }) ∧
    (0x3F00 ≤ a.toNat →
      let i := if a.toNat % 32 ∈ [0x10, 0x14, 0x18, 0x1C] then a.toNat % 16 else a.toNat % 32
      vRead s a = s.palette.read i &&& 0x3F ∧
      vWrite a d s = { s with palette := s.palette.write i (d &&& s.config.paletteMask &&& 0x3F) })

/-! ## PPU registers -/

/-- 50_ppu R601, R602, R604, R608 and R610: what a write to PPUCTRL, PPUMASK, PPUSTATUS, OAMADDR, PPUSCROLL and PPUADDR
does, bit by bit of t and x, in both states of the toggle; nothing else changes. -/
def Obligations.PpuRegisterWrites : Prop :=
  ∀ (s : State) (d : Byte),
    (∃ t : Scroll,
      (∀ i < 15, t.getLsbD i = if i = 10 then d.getLsbD 0 else if i = 11 then d.getLsbD 1 else s.ppu.t.getLsbD i) ∧
      ppuRegWrite .ctrl d s =
        { s with nmiLine := s.nmiLine || (!s.ppu.ctrl.getLsbD 7 && d.getLsbD 7 && s.ppu.vblank),
                 ppu := { s.ppu with ctrl := d, t := t } }) ∧
    ppuRegWrite .mask d s = { s with ppu := { s.ppu with mask := d } } ∧
    ppuRegWrite .status d s = s ∧
    ppuRegWrite .oamAddr d s = { s with ppu := { s.ppu with oamAddr := d } } ∧
    (s.ppu.w = false → ∃ (t : Scroll) (x : BitVec 3),
      (∀ i < 15, t.getLsbD i = if i < 5 then d.getLsbD (i + 3) else s.ppu.t.getLsbD i) ∧ x.toNat = d.toNat % 8 ∧
      ppuRegWrite .scroll d s = { s with ppu := { s.ppu with t := t, x := x, w := true } }) ∧
    (s.ppu.w = true → ∃ t : Scroll,
      (∀ i < 15, t.getLsbD i =
        if 12 ≤ i then d.getLsbD (i - 12) else if 5 ≤ i ∧ i < 10 then d.getLsbD (i - 2) else s.ppu.t.getLsbD i) ∧
      ppuRegWrite .scroll d s = { s with ppu := { s.ppu with t := t, w := false } }) ∧
    (s.ppu.w = false → ∃ t : Scroll,
      (∀ i < 15, t.getLsbD i =
        if i = 14 then false else if 8 ≤ i then d.getLsbD (i - 8) else s.ppu.t.getLsbD i) ∧
      ppuRegWrite .addr d s = { s with ppu := { s.ppu with t := t, w := true } }) ∧
    (s.ppu.w = true → ∃ t : Scroll,
      (∀ i < 15, t.getLsbD i = if i < 8 then d.getLsbD i else s.ppu.t.getLsbD i) ∧
      ppuRegWrite .addr d s = { s with ppu := { s.ppu with t := t, v := t, w := false } })

/-- 50_ppu R603 and R610: a read of PPUSTATUS gives the VBlank flag over seven bits of a draw and clears the flag and the
toggle (not the NMI line); a read of a write-only register gives a draw; a write to PPUSTATUS changes nothing. -/
def Obligations.PpuRegisterReads : Prop :=
  ∀ (s : State),
    (ppuRegRead .status s).value.getLsbD 7 = s.ppu.vblank ∧
    (∀ i < 7, (ppuRegRead .status s).value.getLsbD i = (Config.draw s.draws).getLsbD i) ∧
    (ppuRegRead .status s).state =
      { s with draws := s.draws + 1, ppu := { s.ppu with vblank := false, w := false } } ∧
    (∀ r ∈ [PpuReg.ctrl, .mask, .oamAddr, .scroll, .addr],
      ppuRegRead r s = { value := Config.draw s.draws, state := { s with draws := s.draws + 1 } }) ∧
    (∀ d : Byte, ppuRegWrite .status d s = s)

/-- 50_ppu R605 and R607: the OAM and VRAM data ports; the VRAM port is one read behind below $3F00, gives a palette cell at
once with bits 7:6 a draw, and adds 1 or 32 to v modulo 2^15. -/
def Obligations.PpuDataPorts : Prop :=
  ∀ (s : State) (d : Byte),
    ppuRegRead .oamData s = { value := s.oam.read s.ppu.oamAddr.toNat, state := s } ∧
    ppuRegWrite .oamData d s =
      { s with oam := s.oam.write s.ppu.oamAddr.toNat d, ppu := { s.ppu with oamAddr := s.ppu.oamAddr + 1 } } ∧
    (∃ (a : VAddr) (v : Scroll),
      a.toNat = s.ppu.v.toNat % 0x4000 ∧ v.toNat = (s.ppu.v.toNat + (if s.ppu.ctrl.getLsbD 2 then 32 else 1)) % 0x8000 ∧
      (a.toNat < 0x3F00 →
        ppuRegRead .data s =
          { value := s.ppu.readBuffer, state := { s with ppu := { s.ppu with readBuffer := vRead s a, v := v } } }) ∧
      (0x3F00 ≤ a.toNat →
        (∀ i < 6, (ppuRegRead .data s).value.getLsbD i = (vRead s a).getLsbD i) ∧
        (∀ i, 6 ≤ i → i < 8 → (ppuRegRead .data s).value.getLsbD i = (Config.draw s.draws).getLsbD i) ∧
        (ppuRegRead .data s).state =
          { s with draws := s.draws + 1, ppu := { s.ppu with readBuffer := vRead s (a - 0x1000), v := v } }) ∧
      ppuRegWrite .data d s =
        (let t := vWrite a d s
         { t with ppu := { s.ppu with v := v } }))

/-- 50_ppu R606: a write of d to $4014 copies the page d of the CPU's memory into OAM from the OAM address on, modulo 256,
and adds `oamDmaCycles`; nothing else changes. Stated for a page that holds memory, where the copied bytes have names. -/
def Obligations.OamDmaCopiesThePage : Prop :=
  ∀ (s : State) (d : Byte) (g : Nat → Byte), s.oam.wf = true →
    (∀ i < 256, peek s (BitVec.ofNat 16 (d.toNat * 256 + i)) = some (g i)) →
    ∃ o : Memory, o.wf = true ∧ (∀ i < 256, o.read ((s.ppu.oamAddr.toNat + i) % 256) = g i) ∧
      (∀ k, 256 ≤ k → o.read k = s.oam.read k) ∧
      memWrite 0x4014 d s = { s with oam := o, cycles := s.cycles + s.config.oamDmaCycles }

/-- 50_ppu R609: after any register accesses the toggle is the parity of the writes to $2005 and $2006 since the last read
of $2002, or, if there was none, of those writes added to the toggle before (0 at reset); neither rendering nor a DMA from a
page outside the PPU registers changes it. -/
def Obligations.ToggleFollowsItsWrites : Prop :=
  (∀ (l : List RegAccess) (s : State),
    (runAccesses l s).ppu.w =
      if l.any RegAccess.isStatusRead then decide (toggleWrites l % 2 = 1)
      else s.ppu.w ^^ decide (toggleWrites l % 2 = 1)) ∧
  Ppu.reset.w = false ∧
  (∀ (n : Nat) (s : State), (tick n s).ppu.w = s.ppu.w) ∧
  (∀ (d : Byte) (s : State), d.toNat < 0x20 ∨ s.config.ppuRegWindowEnd.toNat < d.toNat * 256 →
    (memWrite 0x4014 d s).ppu.w = s.ppu.w)

/-! ## The dot clock -/

/-- 50_ppu R621: a tick of n dots performs the dots one after another, each the actions of its place and then the advance of
the counters; so the raster moves n dots on, modulo a frame, and stays in range (R640). -/
def Obligations.TickMovesTheRaster : Prop :=
  (∀ (s : State) (n : Nat), tick 0 s = s ∧ tick (n + 1) s = dot (tick n s)) ∧
  (∀ (s : State), ∃ (l d : Nat),
    (l, d) = (if s.ppu.dot + 1 = s.config.dotsPerLine then ((s.ppu.line + 1) % s.config.linesPerFrame, 0)
      else (s.ppu.line, s.ppu.dot + 1)) ∧
    dot s =
      (let t := dotActions s.ppu.line s.ppu.dot s
       { t with ppu := { t.ppu with line := l, dot := d } })) ∧
  (∀ (s : State) (n : Nat), s.RasterInRange →
    (tick n s).RasterInRange ∧
    (tick n s).ppu.line * s.config.dotsPerLine + (tick n s).ppu.dot =
      (s.ppu.line * s.config.dotsPerLine + s.ppu.dot + n) % (s.config.dotsPerLine * s.config.linesPerFrame))

/-- 50_ppu R641, from any state at (261, 0) with the default parameters: (0, 0) after 341 dots; the flag is clear after 2
dots and until the 82,524th, which sets it, and so in every frame of 89,342 dots after it, whatever it was at reset; the
frame callback fires at that dot and every 89,342 dots after it, and at no other. -/
def Obligations.VblankTimelineFromReset : Prop :=
  ∀ (s : State) (n : Nat), s.config = defaultConfig → s.ppu.line = 261 → s.ppu.dot = 0 →
    ((tick 341 s).ppu.line = 0 ∧ (tick 341 s).ppu.dot = 0) ∧
    (tick 82523 s).ppu.vblank = false ∧ (tick 82524 s).ppu.vblank = true ∧
    (2 ≤ n → ((tick n s).ppu.vblank = true ↔ 82524 ≤ n % 89342 ∨ n % 89342 < 2)) ∧
    (tick n s).host.out.length = s.host.out.length + (n + 6818) / 89342

/-- 50_ppu R633 to R635: VBlank entry sets the flag, gives the host a copy of the frame, and sets the NMI line when `ctrl[7]`
is set; VBlank exit clears the flag and not the line; at every other dot the flag, the line and the host's side are as
before; nothing in the PPU clears the line. -/
def Obligations.VblankEvents : Prop :=
  (∀ (s : State), 240 ≤ s.config.vblankLine → s.config.vblankLine ≠ s.config.prescanLine →
    dotActions s.config.vblankLine 1 s =
      { s with host := { s.host with out := .frame s.frame :: s.host.out },
               nmiLine := s.nmiLine || s.ppu.ctrl.getLsbD 7, ppu := { s.ppu with vblank := true } } ∧
    (let t := dotActions s.config.prescanLine 1 s
     t.ppu.vblank = false ∧ t.nmiLine = s.nmiLine ∧ t.host = s.host)) ∧
  (∀ (s : State) (l d : Nat), ¬ (d = 1 ∧ (l = s.config.vblankLine ∨ l = s.config.prescanLine)) →
    let t := dotActions l d s
    t.ppu.vblank = s.ppu.vblank ∧ t.nmiLine = s.nmiLine ∧ t.host = s.host) ∧
  (∀ (s : State) (n : Nat), s.nmiLine = true → (tick n s).nmiLine = true)

/-- 50_ppu R627, R628 and R630 to R632, bit by bit or in arithmetic: the shift, the bit-reversed reload, the coarse-X and Y
increments with their wraps, and the two copies from t; and the dots of the shift, the reload, the increments and the
horizontal copy. -/
def Obligations.ScrollAndShiftRegisters : Prop :=
  (∀ (p : Ppu), p.shifted = { p with bgLo := p.bgLo >>> 1, bgHi := p.bgHi >>> 1, atLo := p.atLo >>> 1, atHi := p.atHi >>> 1 } ∧
    p.reloaded = { p with bgLo := p.reloaded.bgLo, bgHi := p.reloaded.bgHi, atLo := p.reloaded.atLo, atHi := p.reloaded.atHi } ∧
    (∀ i < 8, p.reloaded.bgLo.getLsbD i = p.bgLo.getLsbD i ∧ p.reloaded.bgLo.getLsbD (8 + i) = p.ptLoLatch.getLsbD (7 - i) ∧
      p.reloaded.bgHi.getLsbD i = p.bgHi.getLsbD i ∧ p.reloaded.bgHi.getLsbD (8 + i) = p.ptHiLatch.getLsbD (7 - i) ∧
      p.reloaded.atLo.getLsbD i = p.atLo.getLsbD i ∧ p.reloaded.atLo.getLsbD (8 + i) = p.atLatch.getLsbD 0 ∧
      p.reloaded.atHi.getLsbD i = p.atHi.getLsbD i ∧ p.reloaded.atHi.getLsbD (8 + i) = p.atLatch.getLsbD 1)) ∧
  (∀ (v : Scroll),
    (v.toNat % 32 = 31 → ∀ i < 15, (incCoarseX v).getLsbD i =
      if i < 5 then false else if i = 10 then !v.getLsbD 10 else v.getLsbD i) ∧
    (v.toNat % 32 ≠ 31 → (incCoarseX v).toNat = v.toNat + 1)) ∧
  (∀ (v : Scroll),
    let fine := v.toNat / 0x1000
    let row := v.toNat / 0x20 % 0x20
    (fine < 7 → (incY v).toNat = v.toNat + 0x1000) ∧
    (fine = 7 → row = 29 → ∀ i < 15, (incY v).getLsbD i =
      if 12 ≤ i ∨ (5 ≤ i ∧ i < 10) then false else if i = 11 then !v.getLsbD 11 else v.getLsbD i) ∧
    (fine = 7 → row = 31 → ∀ i < 15, (incY v).getLsbD i = if 12 ≤ i ∨ (5 ≤ i ∧ i < 10) then false else v.getLsbD i) ∧
    (fine = 7 → row ≠ 29 → row ≠ 31 → (incY v).toNat = v.toNat - 0x7000 + 0x20)) ∧
  (∀ (v t : Scroll) (i : Nat), i < 15 →
    (copyHorizontal v t).getLsbD i = (if i < 5 ∨ i = 10 then t.getLsbD i else v.getLsbD i) ∧
    (copyVertical v t).getLsbD i = (if (5 ≤ i ∧ i < 10) ∨ 11 ≤ i then t.getLsbD i else v.getLsbD i)) ∧
  (∀ (s : State) (D : Nat),
    (backgroundFetch 7 s).ppu =
      { ({ s.ppu with ptHiLatch := vRead s (s.ppu.ptAddr + 8) } : Ppu).reloaded with v := incCoarseX s.ppu.v } ∧
    fetchDot D s =
      (if (1 ≤ D ∧ D ≤ 256) ∨ (321 ≤ D ∧ D ≤ 336) then backgroundFetch ((D - 1) % 8) { s with ppu := s.ppu.shifted } else s) ∧
    scrollDot D s =
      (if D = 256 then { s with ppu := { s.ppu with v := incY s.ppu.v } }
       else if D = 257 then { s with ppu := { s.ppu with v := copyHorizontal s.ppu.v s.ppu.t } } else s))

/-- 50_ppu R629 and R637: the pixel of a visible dot comes from bit `x` of the four shift registers, with the left-column
mask and the backdrop rule; with rendering disabled it is the backdrop, and the dot does nothing else but the flag events. That
a prescan or vertical-blank line which parameters put below 240 is drawn too is the model's choice (log entry 20, DESIGN
CHOICE, unsafe); the default parameters have no such line. -/
def Obligations.PixelFormation : Prop :=
  (∀ (s : State) (L X : Nat), X < 256 →
    let bit (r : BitVec 16) : Nat := if r.getLsbD s.ppu.x.toNat then 1 else 0
    let p := if s.ppu.mask.getLsbD 3 = false ∨ (s.ppu.mask.getLsbD 1 = false ∧ X < 8) then 0
      else 2 * bit s.ppu.bgHi + bit s.ppu.bgLo
    let at' := 2 * bit s.ppu.atHi + bit s.ppu.atLo
    let c := if (s.ppu.mask.getLsbD 3 = false ∧ s.ppu.mask.getLsbD 4 = false) ∨ p = 0 then vRead s 0x3F00
      else vRead s (BitVec.ofNat 14 (0x3F00 + at' * 4 + p))
    pixel L (X + 1) s = { s with frame := s.frame.write (256 * L + X) (c &&& 0x3F) }) ∧
  (∀ (s : State) (L D : Nat), s.ppu.mask.getLsbD 3 = false → s.ppu.mask.getLsbD 4 = false →
    dotActions L D s = flagDot L D (if L < 240 ∧ 1 ≤ D ∧ D ≤ 256 then pixel L D s else s))

/-- 50_ppu R620, R624 to R626 and R636: the four fetch addresses, the fetch of each phase, the sprite-slot fetches, which only
the mapper's monitor sees, the dots of the vertical copy, and the order of a dot's actions; rendering is enabled by `mask[3]`
or `mask[4]`, and only on visible lines and the prescan line. What a line does that parameters put in two classes is the
model's choice (log entry 20, DESIGN CHOICE, unsafe); that the nametable reads of the sprite slots and the idle reads are left
out, since they change nothing, is the model's inference (log entry 17, DEDUCED). -/
def Obligations.FetchSchedule : Prop :=
  (∀ (p : Ppu),
    p.ntAddr.toNat = 0x2000 + p.v.toNat % 0x1000 ∧
    p.atAddr.toNat = 0x23C0 + p.v.toNat / 0x400 % 4 * 0x400 + p.v.toNat / 0x80 % 8 * 8 + p.v.toNat / 4 % 8 ∧
    p.atShift = p.v.toNat / 0x40 % 2 * 4 + p.v.toNat / 2 % 2 * 2 ∧
    p.ptAddr.toNat = (if p.ctrl.getLsbD 4 then 0x1000 else 0) + p.ntLatch.toNat * 16 + p.v.toNat / 0x1000 ∧
    p.spAddr.toNat = (if p.ctrl.getLsbD 5 then 0x1000 + 0xFE * 16 else (if p.ctrl.getLsbD 3 then 0x1000 else 0) + 0xFF * 16)) ∧
  (∀ (s : State),
    (∀ f ∈ [0, 2, 4, 6], backgroundFetch f s = s) ∧
    backgroundFetch 1 s = { s with ppu := { s.ppu with ntLatch := vRead s s.ppu.ntAddr } } ∧
    (∃ l : BitVec 2, l.toNat = (vRead s s.ppu.atAddr).toNat / 2 ^ s.ppu.atShift % 4 ∧
      backgroundFetch 3 s = { s with ppu := { s.ppu with atLatch := l } }) ∧
    backgroundFetch 5 s =
      mapperVideoRead s.ppu.ptAddr { s with ppu := { s.ppu with ptLoLatch := vRead s s.ppu.ptAddr } } ∧
    backgroundFetch 7 s =
      (let t := mapperVideoRead (s.ppu.ptAddr + 8) { s with ppu := { s.ppu with ptHiLatch := vRead s (s.ppu.ptAddr + 8) } }
       { t with ppu := { t.ppu.reloaded with v := incCoarseX t.ppu.v } })) ∧
  (∀ (s : State) (D : Nat),
    fetchDot D s =
      (if (1 ≤ D ∧ D ≤ 256) ∨ (321 ≤ D ∧ D ≤ 336) then backgroundFetch ((D - 1) % 8) { s with ppu := s.ppu.shifted } else s) ∧
    spriteDot D s =
      (if 257 ≤ D ∧ D ≤ 320 ∧ (D - 257) % 8 = 5 then mapperVideoRead s.ppu.spAddr s
       else if 257 ≤ D ∧ D ≤ 320 ∧ (D - 257) % 8 = 7 then mapperVideoRead (s.ppu.spAddr + 8) s else s)) ∧
  (∀ (s : State) (L D : Nat),
    verticalCopyDot L D s =
      (if L = s.config.prescanLine ∧ 280 ≤ D ∧ D ≤ 304 then
        { s with ppu := { s.ppu with v := copyVertical s.ppu.v s.ppu.t } } else s) ∧
    dotActions L D s =
      (let drawn := if L < 240 ∧ 1 ≤ D ∧ D ≤ 256 then pixel L D s else s
       flagDot L D (if (L < 240 ∨ L = s.config.prescanLine) ∧ (s.ppu.mask.getLsbD 3 = true ∨ s.ppu.mask.getLsbD 4 = true) then
         verticalCopyDot L D (spriteDot D (scrollDot D (fetchDot D drawn))) else drawn)))

/-- 50_ppu R640: a tick leaves every CPU register, every memory but the frame buffer, the controller, the decode cache and the
PPU registers ctrl, mask, oamAddr, t, x, w and the read buffer as they are; of the mapper it changes MMC3's counter, reload
flag and last A12 only (51_cartridge_mapper R741, R742); with rendering disabled it leaves v, the mapper and the IRQ line as they are. -/
def Obligations.RenderingLeavesTheRest : Prop :=
  ∀ (n : Nat) (s : State),
    let t := tick n s
    t = { s with frame := t.frame, ppu := t.ppu, nmiLine := t.nmiLine, irqLine := t.irqLine, map := t.map, host := t.host } ∧
    t.ppu.ctrl = s.ppu.ctrl ∧ t.ppu.mask = s.ppu.mask ∧ t.ppu.oamAddr = s.ppu.oamAddr ∧ t.ppu.t = s.ppu.t ∧
    t.ppu.x = s.ppu.x ∧ t.ppu.w = s.ppu.w ∧ t.ppu.readBuffer = s.ppu.readBuffer ∧
    t.map = { s.map with variant := t.map.variant } ∧ ((∀ r, s.map.variant ≠ .mmc3 r) → t.map = s.map) ∧
    (∀ r, s.map.variant = .mmc3 r → ∃ c l a,
      t.map.variant = .mmc3 { r with irqCounter := c, irqReload := l, lastA12 := a }) ∧
    t.host = { s.host with out := t.host.out } ∧
    (s.ppu.mask.getLsbD 3 = false → s.ppu.mask.getLsbD 4 = false →
      t.ppu.v = s.ppu.v ∧ t.map = s.map ∧ t.irqLine = s.irqLine)

/-! ## The mapper -/

/-- 51_cartridge_mapper R720 and R730 to R732: reset, register write, mirroring and video-read monitor of NROM, UxROM, CNROM
and AxROM. A write changes neither the IRQ line nor any memory. -/
def Obligations.DiscreteMappers : Prop :=
  (∀ (c : CartInfo),
    (∀ v ∈ [Variant.nrom, .cnrom], mapperReset v c =
      { variant := v, prg3 := ⟨.prgRam, 0⟩, prg := #v[⟨.prgRom, 0⟩, ⟨.prgRom, 1⟩, ⟨.prgRom, -2⟩, ⟨.prgRom, -1⟩],
        chr := Vector.ofFn (fun j => ⟨c.chrSegment, j.val⟩), mirroring := c.headerMirroring }) ∧
    mapperReset .uxrom c =
      { variant := .uxrom, prg3 := ⟨.prgRam, 0⟩, prg := #v[⟨.prgRom, 0⟩, ⟨.prgRom, 1⟩, ⟨.prgRom, -2⟩, ⟨.prgRom, -1⟩],
        chr := Vector.ofFn (fun j => ⟨c.chrSegment, j.val⟩), mirroring := c.headerMirroring } ∧
    mapperReset .axrom c =
      { variant := .axrom, prg3 := ⟨.prgRam, 0⟩, prg := #v[⟨.prgRom, 0⟩, ⟨.prgRom, 1⟩, ⟨.prgRom, 2⟩, ⟨.prgRom, 3⟩],
        chr := Vector.ofFn (fun j => ⟨c.chrSegment, j.val⟩), mirroring := .singleLow }) ∧
  (∀ (s : State) (a : Word) (d : Byte) (v : VAddr),
    (s.map.variant = .nrom → mapperWrite a d s = s) ∧
    (s.map.variant = .uxrom → mapperWrite a d s = { s with map := { s.map with
      prg := #v[⟨.prgRom, 2 * d.toNat⟩, ⟨.prgRom, 2 * d.toNat + 1⟩, s.map.prg[2], s.map.prg[3]] } }) ∧
    (s.map.variant = .cnrom → mapperWrite a d s = { s with map := { s.map with
      chr := Vector.ofFn (fun j => ⟨s.cart.chrSegment, 8 * d.toNat + j.val⟩) } }) ∧
    (s.map.variant = .axrom → mapperWrite a d s = { s with map := { s.map with
      prg := Vector.ofFn (fun j => ⟨.prgRom, 4 * (d.toNat % 8 : Nat) + j.val⟩)
      mirroring := if d.getLsbD 4 then .singleHigh else .singleLow } }) ∧
    (s.map.variant.number ≠ 4 → mapperVideoRead v s = s))

/-- 51_cartridge_mapper R721 to R723: MMC1's reset; a CPU write at $8000-$FFFF is its register write and changes the mapper
state only; what `Mmc1Apply` makes of the registers; a write with bit 7 set; and five
writes from an empty shift register, whose low bits, the first one lowest, go to the register that the fifth address
selects. -/
def Obligations.Mmc1SerialPort : Prop :=
  (∀ (c : CartInfo), mapperReset (.mmc1 Mmc1.reset) c =
      mmc1Apply { shift := 0, count := 0, control := 0x0C, chrBank0 := 0, chrBank1 := 0, prgBank := 0 } c.chrSegment
        (mapperReset (.mmc1 Mmc1.reset) c) ∧ (mapperReset (.mmc1 Mmc1.reset) c).mirroring = .singleLow) ∧
  (∀ (s : State) (r : Mmc1) (a : Word) (d : Byte), s.map.variant = .mmc1 r →
    mapperWrite a d s = { s with map := mmc1Write r s.cart.chrSegment a d s.map } ∧
    (0x8000 ≤ a.toNat → memWrite a d s = { s with map := mmc1Write r s.cart.chrSegment a d s.map })) ∧
  (∀ (r : Mmc1) (c : Segment) (m : MapperState),
    let bank : Int := (r.prgBank.toNat % 16 : Nat)
    mmc1Apply r c m =
      { variant := .mmc1 r, prg3 := m.prg3
        prg := if r.control.toNat / 4 % 4 < 2 then Vector.ofFn (fun j => ⟨.prgRom, 4 * (bank / 2) + j.val⟩)
          else if r.control.toNat / 4 % 4 = 2 then
            #v[⟨.prgRom, 0⟩, ⟨.prgRom, 1⟩, ⟨.prgRom, 2 * bank⟩, ⟨.prgRom, 2 * bank + 1⟩]
          else #v[⟨.prgRom, 2 * bank⟩, ⟨.prgRom, 2 * bank + 1⟩, ⟨.prgRom, -2⟩, ⟨.prgRom, -1⟩]
        chr := if r.control.getLsbD 4 then
            Vector.ofFn (fun j => ⟨c, if j.val < 4 then 4 * r.chrBank0.toNat + j.val else 4 * r.chrBank1.toNat + (j.val - 4)⟩)
          else Vector.ofFn (fun j => ⟨c, 8 * (r.chrBank0.toNat / 2 : Nat) + j.val⟩)
        mirroring := match r.control.toNat % 4 with
          | 0 => .singleLow
          | 1 => .singleHigh
          | 2 => .vertical
          | _ => .horizontal }) ∧
  (∀ (r : Mmc1) (c : Segment) (m : MapperState) (a : Word) (d : Byte), d.getLsbD 7 = true →
    mmc1Write r c a d m = mmc1Apply { r with shift := 0, count := 0, control := r.control ||| 0x0C } c m) ∧
  (∀ (r : Mmc1) (c : Segment) (m : MapperState) (a1 a2 a3 a4 a5 : Word) (d1 d2 d3 d4 d5 : Byte),
    m.variant = .mmc1 r → r.count = 0 → (∀ d ∈ [d1, d2, d3, d4, d5], d.getLsbD 7 = false) →
    ∃ v : BitVec 5, v.getLsbD 0 = d1.getLsbD 0 ∧ v.getLsbD 1 = d2.getLsbD 0 ∧ v.getLsbD 2 = d3.getLsbD 0 ∧
      v.getLsbD 3 = d4.getLsbD 0 ∧ v.getLsbD 4 = d5.getLsbD 0 ∧
      (∀ k ≤ 4, ∃ r' : Mmc1, r'.count = k ∧ r' = { r with shift := r'.shift, count := k } ∧
        mmc1Writes ([(a1, d1), (a2, d2), (a3, d3), (a4, d4)].take k) c m = { m with variant := .mmc1 r' }) ∧
      ∃ m' : MapperState, m' = { m with variant := m'.variant } ∧
        mmc1Writes [(a1, d1), (a2, d2), (a3, d3), (a4, d4), (a5, d5)] c m =
          mmc1Apply
            (match a5.toNat / 0x2000 % 4 with
              | 0 => { r with shift := 0, count := 0, control := v }
              | 1 => { r with shift := 0, count := 0, chrBank0 := v }
              | 2 => { r with shift := 0, count := 0, chrBank1 := v }
              | _ => { r with shift := 0, count := 0, prgBank := v }) c m')

/-- 51_cartridge_mapper R740, R744 and R745: MMC3's reset, each of its eight registers, and what `Mmc3Apply` makes of them. -/
def Obligations.Mmc3Registers : Prop :=
  (∀ (c : CartInfo),
    let r : Mmc3 :=
      { bankSelect := 0, R := #v[0, 2, 4, 5, 6, 7, 0, 1], irqLatch := 0, irqCounter := 0, irqReload := false,
        irqEnabled := false, lastA12 := false }
    Mmc3.reset = r ∧ mapperReset (.mmc3 r) c = mmc3Apply r c.chrSegment (mapperReset (.mmc3 r) c) ∧
      (mapperReset (.mmc3 r) c).mirroring = c.headerMirroring) ∧
  (∀ (r : Mmc3) (c : Segment) (m : MapperState),
    let prg6 : Window := ⟨.prgRom, (r.R[6].toNat % 64 : Nat)⟩
    let prg7 : Window := ⟨.prgRom, (r.R[7].toNat % 64 : Nat)⟩
    let one (k : Fin 8) : Window := ⟨c, r.R[k].toNat⟩
    let even (k : Fin 8) : Window := ⟨c, (r.R[k].toNat / 2 * 2 : Nat)⟩
    let odd (k : Fin 8) : Window := ⟨c, (r.R[k].toNat / 2 * 2 + 1 : Nat)⟩
    mmc3Apply r c m =
      { variant := .mmc3 r, prg3 := m.prg3, mirroring := m.mirroring
        prg := if r.bankSelect.getLsbD 6 then #v[⟨.prgRom, -2⟩, prg7, prg6, ⟨.prgRom, -1⟩]
          else #v[prg6, prg7, ⟨.prgRom, -2⟩, ⟨.prgRom, -1⟩]
        chr := if r.bankSelect.getLsbD 7 then #v[one 2, one 3, one 4, one 5, even 0, odd 0, even 1, odd 1]
          else #v[even 0, odd 0, even 1, odd 1, one 2, one 3, one 4, one 5] }) ∧
  (∀ (s : State) (r : Mmc3) (a : Word) (d : Byte), s.map.variant = .mmc3 r → 0x8000 ≤ a.toNat →
    mapperWrite a d s =
      (match a.toNat / 0x2000, a.toNat % 2 with
        | 4, 0 => { s with map := mmc3Apply { r with bankSelect := d } s.cart.chrSegment s.map }
        | 4, _ =>
          { s with map := mmc3Apply { r with R := r.R.set (r.bankSelect.toNat % 8) d (by omega) } s.cart.chrSegment s.map }
        | 5, 0 => { s with map := { s.map with mirroring := if d.getLsbD 0 then .horizontal else .vertical } }
        | 5, _ => s
        | 6, 0 => { s with map := { s.map with variant := .mmc3 { r with irqLatch := d } } }
        | 6, _ => { s with map := { s.map with variant := .mmc3 { r with irqCounter := 0, irqReload := true } } }
        | _, 0 => { s with irqLine := false, map := { s.map with variant := .mmc3 { r with irqEnabled := false } } }
        | _, _ => { s with map := { s.map with variant := .mmc3 { r with irqEnabled := true } } }))

/-- 51_cartridge_mapper R741 to R743: a rising edge of A12 clocks the counter; the clock; and the scanline law: from a reload
with latch N, 1 <= N <= 239, the first clock loads N, the next N count it down, and the line rises at clock N + 1 and not
before when interrupts are enabled, and never when they are not. -/
def Obligations.Mmc3ScanlineCounter : Prop :=
  (∀ (s : State) (r : Mmc3) (a : VAddr), s.map.variant = .mmc3 r →
    mapperVideoRead a s =
      (if r.lastA12 = false ∧ a.getLsbD 12 = true then
        { s with irqLine := s.irqLine || r.asserts, map := { s.map with variant := .mmc3 { r.clock with lastA12 := true } } }
      else { s with map := { s.map with variant := .mmc3 { r with lastA12 := a.getLsbD 12 } } })) ∧
  (∀ (r : Mmc3),
    r.clock = (if r.irqCounter = 0 ∨ r.irqReload = true then { r with irqCounter := r.irqLatch, irqReload := false }
      else { r with irqCounter := r.irqCounter - 1 }) ∧
    (r.asserts = true ↔ r.clock.irqCounter = 0 ∧ r.irqEnabled = true)) ∧
  (∀ (r : Mmc3) (N k : Nat), r.irqReload = true → r.irqLatch.toNat = N → 1 ≤ N → N ≤ 239 →
    (1 ≤ k → k ≤ N + 1 → (mmc3Clocks k r false).1.irqCounter.toNat = N + 1 - k) ∧
    (r.irqEnabled = true → ((mmc3Clocks k r false).2 = true ↔ N + 1 ≤ k)) ∧
    (r.irqEnabled = false → (mmc3Clocks k r false).2 = false))

/-- 51_cartridge_mapper R714 and 70_reset_and_hazards R952: after the mapper reset slot 3 is PRG-RAM bank 0, and slot 7, where
the reset vector lies, holds the last 8 KB of PRG-ROM, but on AxROM the last 8 KB of 32 KB bank 0; the mirroring is the
header's, but SingleLow on MMC1 and AxROM. -/
def Obligations.MapperResetMapsTheVector : Prop :=
  ∀ (c : CartInfo) (v : Variant), 1 ≤ c.prgCount →
    (mapperReset v c).prg3 = ⟨.prgRam, 0⟩ ∧
    (mapperReset v c).mirroring = (if v.number = 1 ∨ v.number = 7 then .singleLow else c.headerMirroring) ∧
    ((mapperReset v c).prg[3]).seg = .prgRom ∧
    bankIndex (2 * c.prgCount) ((mapperReset v c).prg[3]).bank =
      (if v.number = 7 then 3 % (2 * c.prgCount) else 2 * c.prgCount - 1) ∧
    (∀ (cfg : Config) (rom chr : Memory) (save : Option (List Byte)) (d : PowerOn),
      (powerOn cfg { info := c, variant := v, prgRom := rom, chrRom := chr } save d).map = mapperReset v c ∧
      (powerOn cfg { info := c, variant := v, prgRom := rom, chrRom := chr } save d).irqLine = false)

/-- What no step changes (00_scope R9; 51_cartridge_mapper R700, R704, R750; 31_decode_cache_and_run R307, R309): the
parameters, the header, the ROMs, the mapper's tag, a trace once it is cached, and, on every mapper but MMC3, the IRQ line. -/
def Obligations.WhatNoStepChanges : Prop :=
  ∀ (s t : State), step s = .next t →
    t.config = s.config ∧ t.cart = s.cart ∧ t.prgRom = s.prgRom ∧ t.chrRom = s.chrRom ∧
    t.map.variant.number = s.map.variant.number ∧
    (∀ k tr, cacheLookup s.cache k = some tr → cacheLookup t.cache k = some tr) ∧
    (s.map.variant.number ≠ 4 → t.irqLine = s.irqLine)

/-! ## Loads, stores, transfers and the stack -/

/-- 40_load_store_transfer R400 to R402: every form of LDA, LDX and LDY puts the operand in its register, takes N and Z from
it, moves PC past the instruction and costs its cycles; of the rest only what the operand's bus reads change is changed, and
no byte of memory. -/
def Obligations.LoadsSetRegisterAndFlags : Prop :=
  ∀ (b : Byte) (w : Word) (s : State),
    (∀ f ∈ ldaForms b w ++ ldxForms b w ++ ldyForms b w,
      f.Encoded f.operand.bytes ∧ ReadFrame s (f.operand.load s).state) ∧
    (∀ f ∈ ldaForms b w, ∃ p, FlagsFromResult s.p p (f.operand.load s).value ∧
      exec f.instr s = .next { (f.operand.load s).state with
        a := (f.operand.load s).value, p := p, pc := f.after f.operand.bytes s, cycles := f.readCycles s }) ∧
    (∀ f ∈ ldxForms b w, ∃ p, FlagsFromResult s.p p (f.operand.load s).value ∧
      exec f.instr s = .next { (f.operand.load s).state with
        x := (f.operand.load s).value, p := p, pc := f.after f.operand.bytes s, cycles := f.readCycles s }) ∧
    (∀ f ∈ ldyForms b w, ∃ p, FlagsFromResult s.p p (f.operand.load s).value ∧
      exec f.instr s = .next { (f.operand.load s).state with
        y := (f.operand.load s).value, p := p, pc := f.after f.operand.bytes s, cycles := f.readCycles s })

/-- 40_load_store_transfer R403 to R405: every form of STA, STX and STY makes one bus write of its register at the effective
address, with no data read and no flag, moves PC past the instruction and costs its cycles (with those of a DMA). -/
def Obligations.StoresWriteTheRegister : Prop :=
  ∀ (b : Byte) (w : Word) (s : State),
    (∀ f ∈ staForms b w ++ stxForms b w ++ styForms b w, f.Encoded f.operand.bytes ∧ (f.operand.ea s).state = s) ∧
    (∀ f ∈ staForms b w,
      let t := memWrite (f.operand.ea s).addr s.a s
      exec f.instr s = .next { t with pc := f.after f.operand.bytes s, cycles := f.cycles t }) ∧
    (∀ f ∈ stxForms b w,
      let t := memWrite (f.operand.ea s).addr s.x s
      exec f.instr s = .next { t with pc := f.after f.operand.bytes s, cycles := f.cycles t }) ∧
    (∀ f ∈ styForms b w,
      let t := memWrite (f.operand.ea s).addr s.y s
      exec f.instr s = .next { t with pc := f.after f.operand.bytes s, cycles := f.cycles t })

/-- The frame of every form that stores to its operand: STA, STX, STY and, on memory, INC, DEC, ASL, LSR, ROL and ROR. They
go on; no register but PC changes, and no byte of memory but those of the stored place; below $2000 nothing but RAM, and at
$6000-$7FFF nothing but PRG-RAM, is written; at $8000 and above no memory is. P is left to each instruction's statement. -/
def Obligations.StoringFormsFrame : Prop :=
  ∀ (b : Byte) (w : Word) (s : State), s.WindowsFixed → ∀ f ∈ storingForms b w,
    ∃ t, exec f.instr s = .next t ∧ t.a = s.a ∧ t.x = s.x ∧ t.y = s.y ∧ t.sp = s.sp ∧
      t.pc = f.after f.operand.bytes s ∧ t.config = s.config ∧ t.cache = s.cache ∧ t.cur = s.cur ∧ t.prgRom = s.prgRom ∧
      t.chrRom = s.chrRom ∧ t.frame = s.frame ∧ t.cart = s.cart ∧ t.host = s.host ∧
      (let a := (f.operand.ea s).addr
       (a.toNat < 0x8000 → ∀ c, peek s c = none ∨ placeOf s c ≠ placeOf s a → peek t c = peek s c) ∧
       (a.toNat < 0x2000 → t = { s with ram := t.ram, p := t.p, pc := t.pc, cycles := f.cycles s }) ∧
       (0x6000 ≤ a.toNat → a.toNat < 0x8000 →
         t = { s with prgRam := t.prgRam, p := t.p, pc := t.pc, cycles := f.cycles s }) ∧
       (0x8000 ≤ a.toNat →
         t = { s with map := t.map, irqLine := t.irqLine, p := t.p, pc := t.pc, cycles := f.cycles s }))

/-- 40_load_store_transfer R406 to R411: the transfers copy a register, take N and Z from it (TXS takes no flag), and change
nothing else but PC and the cycle count. -/
def Obligations.TransfersCopyARegister : Prop :=
  ∀ (s : State),
    (∀ f ∈ ([⟨.tax, 0xAA, 2, (s.a, fun p => { s with x := s.a, p := p })⟩,
      ⟨.tay, 0xA8, 2, (s.a, fun p => { s with y := s.a, p := p })⟩,
      ⟨.txa, 0x8A, 2, (s.x, fun p => { s with a := s.x, p := p })⟩,
      ⟨.tya, 0x98, 2, (s.y, fun p => { s with a := s.y, p := p })⟩,
      ⟨.tsx, 0xBA, 2, (s.sp, fun p => { s with x := s.sp, p := p })⟩] : List (Form (Byte × (Byte → State)))),
      f.Encoded [] ∧ ∃ p, FlagsFromResult s.p p f.operand.1 ∧
        exec f.instr s = .next { f.operand.2 p with pc := s.pc + 1, cycles := f.cycles s }) ∧
    (let f : Form Unit := ⟨.txs, 0x9A, 2, ()⟩
     f.Encoded [] ∧ exec f.instr s = .next { s with sp := s.x, pc := s.pc + 1, cycles := f.cycles s })

/-- 40_load_store_transfer R412 to R415: PHA and PHP write one byte at $0100 + S (PHP with bits 4 and 5 set) and then decrement
S; PLA and PLP increment S and read the byte at $0100 + S, PLP with bits 4 and 5 forced; S wraps modulo 256; nothing else
changes but A, P, PC and the cycle count as the rules say. -/
def Obligations.StackInstructions : Prop :=
  ∀ (s : State),
    let top := s.ram.read (0x100 + (s.sp.toNat + 1) % 256)
    let pha : Form Unit := ⟨.pha, 0x48, 3, ()⟩
    let php : Form Unit := ⟨.php, 0x08, 3, ()⟩
    let pla : Form Unit := ⟨.pla, 0x68, 4, ()⟩
    let plp : Form Unit := ⟨.plp, 0x28, 4, ()⟩
    (∀ f ∈ [pha, php, pla, plp], f.Encoded []) ∧
    exec pha.instr s = .next { s with
      ram := s.ram.write (0x100 + s.sp.toNat) s.a, sp := s.sp - 1, pc := s.pc + 1, cycles := pha.cycles s } ∧
    exec php.instr s = .next { s with
      ram := s.ram.write (0x100 + s.sp.toNat) (s.p ||| 0x30), sp := s.sp - 1, pc := s.pc + 1, cycles := php.cycles s } ∧
    (∃ p, FlagsFromResult s.p p top ∧
      exec pla.instr s = .next { s with a := top, p := p, sp := s.sp + 1, pc := s.pc + 1, cycles := pla.cycles s }) ∧
    exec plp.instr s = .next { s with
      p := (top &&& 0xCF) ||| 0x20, sp := s.sp + 1, pc := s.pc + 1, cycles := plp.cycles s } ∧
    (∀ (d : Byte) (k : Nat),
      (k ≠ 0x100 + s.sp.toNat → (s.ram.write (0x100 + s.sp.toNat) d).read k = s.ram.read k) ∧
      (s.ram.wf = true → (s.ram.write (0x100 + s.sp.toNat) d).read (0x100 + s.sp.toNat) = d))

/-! ## Arithmetic, logic and shifts -/

/-- 41_arith_logic_shift R450 and R469: every form of ADC adds A, the operand and C in nine bits, whatever D is; C is the carry
out, V the exclusive or of the carries into and out of bit 7, which is the sign rule; N and Z come from the result. -/
def Obligations.AdcAddsWithCarry : Prop :=
  ∀ (b : Byte) (w : Word) (s : State), ∀ f ∈ adcForms b w,
    let m := (f.operand.load s).value
    let c := if s.p.getLsbD 0 then 1 else 0
    let sum := s.a.toNat + m.toNat + c
    let r := BitVec.ofNat 8 sum
    f.Encoded f.operand.bytes ∧ ReadFrame s (f.operand.load s).state ∧
    ∃ p : Byte, flagC p = decide (256 ≤ sum) ∧
      flagV p = (decide (128 ≤ s.a.toNat % 128 + m.toNat % 128 + c) ^^ decide (256 ≤ sum)) ∧
      flagV p = ((s.a ^^^ r) &&& (m ^^^ r)).getLsbD 7 ∧
      flagZ p = decide (sum % 256 = 0) ∧ flagN p = decide (128 ≤ sum % 256) ∧ OtherFlagsKept s.p p [0, 1, 6, 7] ∧
      exec f.instr s = .next { (f.operand.load s).state with
        a := r, p := p, pc := f.after f.operand.bytes s, cycles := f.readCycles s }

/-- 41_arith_logic_shift R451: every form of SBC is ADC of the complement: the result is A - m - (1 - C) modulo 256, C says
that no borrow occurred, V that the signed difference does not fit in a byte; N and Z come from the result. -/
def Obligations.SbcSubtractsWithBorrow : Prop :=
  ∀ (b : Byte) (w : Word) (s : State), ∀ f ∈ sbcForms b w,
    let m := (f.operand.load s).value
    let borrow := if s.p.getLsbD 0 then 0 else 1
    let diff : Int := s.a.toInt - m.toInt - borrow
    let r := BitVec.ofInt 8 ((s.a.toNat : Int) - m.toNat - borrow)
    f.Encoded f.operand.bytes ∧ ReadFrame s (f.operand.load s).state ∧
    ∃ p : Byte, flagC p = decide (m.toNat + borrow ≤ s.a.toNat) ∧ flagV p = decide (diff < -128 ∨ 127 < diff) ∧
      flagZ p = decide (r = 0) ∧ flagN p = r.getLsbD 7 ∧ OtherFlagsKept s.p p [0, 1, 6, 7] ∧
      r = (adc s.a (~~~m) s.p).result ∧ p = (adc s.a (~~~m) s.p).p ∧
      exec f.instr s = .next { (f.operand.load s).state with
        a := r, p := p, pc := f.after f.operand.bytes s, cycles := f.readCycles s }

/-- 41_arith_logic_shift R452 to R454: every form of AND, ORA and EOR. -/
def Obligations.LogicOnTheAccumulator : Prop :=
  ∀ (b : Byte) (w : Word) (s : State),
    (∀ f ∈ andForms b w ++ oraForms b w ++ eorForms b w,
      f.Encoded f.operand.bytes ∧ ReadFrame s (f.operand.load s).state) ∧
    (∀ f ∈ andForms b w, ∃ p, FlagsFromResult s.p p (s.a &&& (f.operand.load s).value) ∧
      exec f.instr s = .next { (f.operand.load s).state with
        a := s.a &&& (f.operand.load s).value, p := p, pc := f.after f.operand.bytes s, cycles := f.readCycles s }) ∧
    (∀ f ∈ oraForms b w, ∃ p, FlagsFromResult s.p p (s.a ||| (f.operand.load s).value) ∧
      exec f.instr s = .next { (f.operand.load s).state with
        a := s.a ||| (f.operand.load s).value, p := p, pc := f.after f.operand.bytes s, cycles := f.readCycles s }) ∧
    (∀ f ∈ eorForms b w, ∃ p, FlagsFromResult s.p p (s.a ^^^ (f.operand.load s).value) ∧
      exec f.instr s = .next { (f.operand.load s).state with
        a := s.a ^^^ (f.operand.load s).value, p := p, pc := f.after f.operand.bytes s, cycles := f.readCycles s })

/-- 41_arith_logic_shift R455 to R458: BIT takes N and V from bits 7 and 6 of the operand and Z from its AND with A; CMP, CPX
and CPY set C when the register is at least the operand, Z on equality and N from bit 7 of the difference; no register is
written and every other flag is kept. -/
def Obligations.BitAndCompares : Prop :=
  ∀ (b : Byte) (w : Word) (s : State),
    (∀ f ∈ bitForms b w ++ cmpForms b w ++ cpxForms b w ++ cpyForms b w,
      f.Encoded f.operand.bytes ∧ ReadFrame s (f.operand.load s).state) ∧
    (∀ f ∈ bitForms b w,
      let m := (f.operand.load s).value
      ∃ p : Byte, flagZ p = decide (s.a &&& m = 0) ∧ flagN p = m.getLsbD 7 ∧ flagV p = m.getLsbD 6 ∧
        OtherFlagsKept s.p p [1, 6, 7] ∧
        exec f.instr s = .next { (f.operand.load s).state with
          p := p, pc := f.after f.operand.bytes s, cycles := f.readCycles s }) ∧
    (∀ q ∈ (cmpForms b w).map (fun f => (s.a, f)) ++ (cpxForms b w).map (fun f => (s.x, f)) ++
        (cpyForms b w).map (fun f => (s.y, f)),
      let m := (q.2.operand.load s).value
      ∃ p : Byte, flagC p = decide (m.toNat ≤ q.1.toNat) ∧ flagZ p = decide (q.1 = m) ∧ flagN p = (q.1 - m).getLsbD 7 ∧
        OtherFlagsKept s.p p [0, 1, 7] ∧
        exec q.2.instr s = .next { (q.2.operand.load s).state with
          p := p, pc := q.2.after q.2.operand.bytes s, cycles := q.2.readCycles s })

/-- 41_arith_logic_shift R459 to R464: INC and DEC make one read and one write of the byte at the effective address; INX, INY,
DEX and DEY work on a register; every result wraps modulo 256 and gives N and Z, and no other flag. -/
def Obligations.IncrementsAndDecrements : Prop :=
  ∀ (b : Byte) (w : Word) (s : State),
    (∀ f ∈ incForms b w ++ decForms b w, f.Encoded f.operand.bytes ∧ (f.operand.ea s).state = s) ∧
    (∀ q ∈ (incForms b w).map (fun f => ((1 : Byte), f)) ++ (decForms b w).map (fun f => ((0xFF : Byte), f)),
      let a := (q.2.operand.ea s).addr
      let m := memRead a s
      let t := memWrite a (m.value + q.1) m.state
      ReadFrame s m.state ∧ ∃ p, FlagsFromResult s.p p (m.value + q.1) ∧
        exec q.2.instr s = .next { t with p := p, pc := q.2.after q.2.operand.bytes s, cycles := q.2.cycles t }) ∧
    (∀ f ∈ ([⟨.inx, 0xE8, 2, (s.x + 1, fun p => { s with x := s.x + 1, p := p })⟩,
        ⟨.iny, 0xC8, 2, (s.y + 1, fun p => { s with y := s.y + 1, p := p })⟩,
        ⟨.dex, 0xCA, 2, (s.x - 1, fun p => { s with x := s.x - 1, p := p })⟩,
        ⟨.dey, 0x88, 2, (s.y - 1, fun p => { s with y := s.y - 1, p := p })⟩] : List (Form (Byte × (Byte → State)))),
      f.Encoded [] ∧ ∃ p, FlagsFromResult s.p p f.operand.1 ∧
        exec f.instr s = .next { f.operand.2 p with pc := s.pc + 1, cycles := f.cycles s })

/-- 41_arith_logic_shift R465 to R468: the shifts and rotates, on A, or with one read and one write of the byte at the
effective address; C is the bit shifted out, N and Z come from the result, the other flags are kept. -/
def Obligations.ShiftsAndRotates : Prop :=
  ∀ (b : Byte) (w : Word) (s : State),
    (∀ q ∈ shiftForms b w,
      let a := (q.1.operand.ea s).addr
      let m := memRead a s
      let r := q.2 m.value (s.p.getLsbD 0)
      let t := memWrite a r.1 m.state
      q.1.Encoded q.1.operand.bytes ∧ (q.1.operand.ea s).state = s ∧ ReadFrame s m.state ∧
      ∃ p, FlagsFromShift s.p p r.1 r.2 ∧
        exec q.1.instr s = .next { t with p := p, pc := q.1.after q.1.operand.bytes s, cycles := q.1.cycles t }) ∧
    (∀ f ∈ ([⟨.aslAcc, 0x0A, 2, (s.a <<< 1, s.a.getLsbD 7)⟩,
        ⟨.lsrAcc, 0x4A, 2, (s.a >>> 1, s.a.getLsbD 0)⟩,
        ⟨.rolAcc, 0x2A, 2, ((s.a <<< 1) ||| (if s.p.getLsbD 0 then 0x01 else 0), s.a.getLsbD 7)⟩,
        ⟨.rorAcc, 0x6A, 2, ((if s.p.getLsbD 0 then 0x80 else 0) ||| (s.a >>> 1), s.a.getLsbD 0)⟩] : List (Form (Byte × Bool))),
      f.Encoded [] ∧ ∃ p, FlagsFromShift s.p p f.operand.1 f.operand.2 ∧
        exec f.instr s = .next { s with a := f.operand.1, p := p, pc := s.pc + 1, cycles := f.cycles s })

/-! ## Control flow and flags -/

/-- 42_control_flags_misc R500 to R508 and 30_encoding R267: each branch goes to `PC + 2` plus its signed offset, modulo 2^16,
when its condition holds, at one more cycle, two on a page cross, and to `PC + 2` when it does not; nothing else changes. A
branch ends its trace. -/
def Obligations.BranchesGoWhereTheirConditionSays : Prop :=
  ∀ (b : Byte) (s : State), ∀ f ∈ ([⟨.bcc b, 0x90, 2, !s.p.getLsbD 0⟩,
      ⟨.bcs b, 0xB0, 2, s.p.getLsbD 0⟩,
      ⟨.beq b, 0xF0, 2, s.p.getLsbD 1⟩,
      ⟨.bmi b, 0x30, 2, s.p.getLsbD 7⟩,
      ⟨.bne b, 0xD0, 2, !s.p.getLsbD 1⟩,
      ⟨.bpl b, 0x10, 2, !s.p.getLsbD 7⟩,
      ⟨.bvc b, 0x50, 2, !s.p.getLsbD 6⟩,
      ⟨.bvs b, 0x70, 2, s.p.getLsbD 6⟩] : List (Form Bool)),
    f.Encoded [b] ∧ (∀ a, (f.instr.microOp a).endsTrace = true) ∧ ∃ target : Word,
      (target.toNat : Int) = ((s.pc.toNat : Int) + 2 + b.toInt) % 65536 ∧
      exec f.instr s = .next (if f.operand then
          { s with pc := target,
                   cycles := f.cycles s + (if target.toNat / 256 ≠ (s.pc.toNat + 2) % 65536 / 256 then 2 else 1) }
        else { s with pc := s.pc + 2, cycles := f.cycles s })

/-- 42_control_flags_misc R509 to R511: JMP sets PC to its effective address, through the wrapping pointer for the indirect
form; JSR pushes PC + 2, the high byte first, and goes to its operand; RTS pulls the low byte and then the high one and adds 1.
No flag changes, and nothing else. -/
def Obligations.JumpsAndSubroutines : Prop :=
  ∀ (w : Word) (s : State),
    (let f : Form Unit := ⟨.jmpAbs w, 0x4C, 3, ()⟩
     f.Encoded [lo w, hi w] ∧ exec f.instr s = .next { s with pc := w, cycles := f.cycles s }) ∧
    (let f : Form Unit := ⟨.jmpInd w, 0x6C, 5, ()⟩
     let l := memRead w s
     let h := memRead (BitVec.ofNat 16 (w.toNat / 256 * 256 + (w.toNat + 1) % 256)) l.state
     f.Encoded [lo w, hi w] ∧ ReadFrame s h.state ∧
       exec f.instr s = .next { h.state with
         pc := BitVec.ofNat 16 (h.value.toNat * 256 + l.value.toNat), cycles := f.cycles s }) ∧
    (let f : Form Unit := ⟨.jsr w, 0x20, 6, ()⟩
     f.Encoded [lo w, hi w] ∧ exec f.instr s = .next { s with
       ram := (s.ram.write (0x100 + s.sp.toNat) (BitVec.ofNat 8 ((s.pc + 2).toNat / 256))).write
         (0x100 + (s.sp - 1).toNat) (BitVec.ofNat 8 (s.pc + 2).toNat)
       sp := s.sp - 2, pc := w, cycles := f.cycles s } ∧
       ∀ t, exec f.instr s = .next t →
         (∀ k, k ≠ 0x100 + s.sp.toNat → k ≠ 0x100 + (s.sp - 1).toNat → t.ram.read k = s.ram.read k) ∧
         (s.ram.wf = true → (t.ram.read (0x100 + s.sp.toNat)).toNat = (s.pc + 2).toNat / 256 ∧
           (t.ram.read (0x100 + (s.sp - 1).toNat)).toNat = (s.pc + 2).toNat % 256)) ∧
    (let f : Form Unit := ⟨.rts, 0x60, 6, ()⟩
     let l := s.ram.read (0x100 + (s.sp + 1).toNat)
     let h := s.ram.read (0x100 + (s.sp + 2).toNat)
     f.Encoded [] ∧ exec f.instr s = .next { s with
       sp := s.sp + 2, pc := BitVec.ofNat 16 (h.toNat * 256 + l.toNat + 1), cycles := f.cycles s })

/-- 42_control_flags_misc R512 and R513: BRK takes the exception: PC + 2 and P with bits 4 and 5 set go to the stack, I is set
and PC is the word at $FFFE; RTI restores P, with bits 4 and 5 forced, and then PC, with no addition. Nothing else changes. -/
def Obligations.BreakAndReturnFromInterrupt : Prop :=
  ∀ (s : State),
    (let f : Form Unit := ⟨.brk, 0x00, 7, ()⟩
     f.Encoded [] ∧ exec f.instr s = .next { s with
       ram := exceptionStack s (s.pc + 2) (s.p ||| 0x30), sp := s.sp - 3, p := s.p ||| 0x04
       pc := vectorAt s 0xFFFE, cycles := f.cycles s }) ∧
    (let f : Form Unit := ⟨.rti, 0x40, 6, ()⟩
     let v := s.ram.read (0x100 + (s.sp + 1).toNat)
     let l := s.ram.read (0x100 + (s.sp + 2).toNat)
     let h := s.ram.read (0x100 + (s.sp + 3).toNat)
     f.Encoded [] ∧ exec f.instr s = .next { s with
       p := (v &&& 0xCF) ||| 0x20, sp := s.sp + 3, pc := BitVec.ofNat 16 (h.toNat * 256 + l.toNat), cycles := f.cycles s })

/-- 42_control_flags_misc R514 to R521: each flag instruction writes its one flag, NOP none; PC advances by 1, and nothing else
changes. -/
def Obligations.FlagInstructionsAndNop : Prop :=
  ∀ (s : State), ∀ f ∈ ([⟨.clc, 0x18, 2, some (0, false)⟩, ⟨.cld, 0xD8, 2, some (3, false)⟩, ⟨.cli, 0x58, 2, some (2, false)⟩,
      ⟨.clv, 0xB8, 2, some (6, false)⟩, ⟨.sec, 0x38, 2, some (0, true)⟩, ⟨.sed, 0xF8, 2, some (3, true)⟩,
      ⟨.sei, 0x78, 2, some (2, true)⟩, ⟨.nop, 0xEA, 2, none⟩] : List (Form (Option (Nat × Bool)))),
    f.Encoded [] ∧ ∃ p : Byte,
      (∀ i < 8, p.getLsbD i =
        match f.operand with
        | some (k, v) => if i = k then v else s.p.getLsbD i
        | none => s.p.getLsbD i) ∧
      exec f.instr s = .next { s with p := p, pc := s.pc + 1, cycles := f.cycles s }

/-- 10_state R55: the only instructions that change a flag are those its row lists; bits B and U of the register never change
but by a restore, which gives them their fixed values (R54). -/
def Obligations.OnlyListedInstructionsChangeAFlag : Prop :=
  ∀ (i : Instr) (s t : State), exec i s = .next t →
    (i.kind ∉ [.adc, .sbc, .cmp, .cpx, .cpy, .asl, .lsr, .rol, .ror, .clc, .sec, .plp, .rti] → flagC t.p = flagC s.p) ∧
    (i.kind ∉ [.lda, .ldx, .ldy, .tax, .tay, .txa, .tya, .tsx, .pla, .adc, .sbc, .and, .ora, .eor, .bit, .cmp, .cpx, .cpy,
        .inc, .dec, .inx, .iny, .dex, .dey, .asl, .lsr, .rol, .ror, .plp, .rti] →
      flagZ t.p = flagZ s.p ∧ flagN t.p = flagN s.p) ∧
    (i.kind ∉ [.adc, .sbc, .bit, .clv, .plp, .rti] → flagV t.p = flagV s.p) ∧
    (i.kind ∉ [.sei, .cli, .plp, .rti, .brk] → flagI t.p = flagI s.p) ∧
    (i.kind ∉ [.sed, .cld, .plp, .rti] → flagD t.p = flagD s.p) ∧
    (i.kind ∉ [.plp, .rti] → flagB t.p = flagB s.p ∧ flagU t.p = flagU s.p) ∧
    (i.kind ∈ [.plp, .rti] → flagB t.p = false ∧ flagU t.p = true)

/-! ## Exceptions and steps -/

/-- 60_exceptions R910, R912, R913, R915 and R916: what is pending; an NMI before an IRQ; the entry pushes PC and P (B = 0,
U = 1), sets I, takes PC from the vector, clears the cursor, costs 7 cycles, and clears the NMI line only for an NMI; nothing
else changes, and of RAM only the three stack bytes. -/
def Obligations.InterruptEntry : Prop :=
  ∀ (s : State),
    (interruptPending s = true ↔
      s.nmiLine = true ∨ (s.irqLine = true ∧ s.p.getLsbD 2 = false ∧ s.config.irqServiced = true)) ∧
    (s.nmiLine = true → cpuStep s = .next { s with
      ram := exceptionStack s s.pc ((s.p &&& 0xCF) ||| 0x20), sp := s.sp - 3, p := s.p ||| 0x04, nmiLine := false
      pc := vectorAt s 0xFFFA, cur := none, cycles := s.cycles + 7 }) ∧
    (s.nmiLine = false → s.irqLine = true → s.p.getLsbD 2 = false → s.config.irqServiced = true →
      cpuStep s = .next { s with
        ram := exceptionStack s s.pc ((s.p &&& 0xCF) ||| 0x20), sp := s.sp - 3, p := s.p ||| 0x04
        pc := vectorAt s 0xFFFE, cur := none, cycles := s.cycles + 7 }) ∧
    (∀ (ret : Word) (status : Byte),
      (∀ k, k ≠ 0x100 + s.sp.toNat → k ≠ 0x100 + (s.sp - 1).toNat → k ≠ 0x100 + (s.sp - 2).toNat →
        (exceptionStack s ret status).read k = s.ram.read k) ∧
      (s.ram.wf = true →
        ((exceptionStack s ret status).read (0x100 + s.sp.toNat)).toNat = ret.toNat / 256 ∧
        ((exceptionStack s ret status).read (0x100 + (s.sp - 1).toNat)).toNat = ret.toNat % 256 ∧
        (exceptionStack s ret status).read (0x100 + (s.sp - 2).toNat) = status))

/-- 31_decode_cache_and_run R302, R303, R306: in a batch, with no interrupt pending and the cache coherent with memory, when
the bytes at PC decode to an instruction, a fetch gives its micro-op and changes nothing but the cache and the cursor, and the
step is `exec` of the instruction, with the cursor moved (R306) and the batch closed if its cycles are used up (R300). -/
def Obligations.StepRunsTheDecodedInstruction : Prop :=
  ∀ (s : State) (n : Nat) (i : Instr) (rest : List Byte) (f : FetchOut),
    s.host.alive = true → s.host.running = some n → s.cycles < n → interruptPending s = false →
    s.CacheShaped → s.TraceCoherent →
    decode [(memRead s.pc s).value, (memRead (s.pc + 1) s).value, (memRead (s.pc + 2) s).value] = .ok (i, rest) →
    fetch s = .ok f →
    f.op = i.microOp s.pc ∧ f.state = { s with cache := f.state.cache, cur := f.state.cur } ∧
    step s =
      (match exec i f.state with
        | .next t => .next (closeRun n (t.setCur (cursorAfter f.op t.cur)))
        | .fault e => .fault e
        | .refused r => .refused r)

/-- 31_decode_cache_and_run R304, R312, 60_exceptions R905, R915 and 52_machine_and_host R806: the stops of a step. Building
a trace is refused at the first instruction byte outside $0000-$1FFF and $6000-$FFFF, after the interrupt poll; an undefined
opcode faults; a destroyed machine refuses every call. -/
def Obligations.StepStops : Prop :=
  (∀ (s : State), s.host.alive = false → step s = .refused .useAfterDestroy) ∧
  (∀ (s : State) (n : Nat), s.host.alive = true → s.host.running = some n → s.cycles < n → interruptPending s = false →
    (cursorOp s = none → cacheLookup s.cache s.pc = none → 0x2000 ≤ s.pc.toNat → s.pc.toNat < 0x6000 →
      step s = .refused (.fetchOutsideMemory s.pc)) ∧
    (∀ f, fetch s = .ok f → f.op.kind = .undefined →
      step s = .fault (.undefinedOpcode f.op.opcode f.op.addr))) ∧
  (∀ (s : State) (a : Word) (r : Refusal), decodeAt s a = .error r →
    ∃ b : Word, r = .fetchOutsideMemory b ∧ 0x2000 ≤ b.toNat ∧ b.toNat < 0x6000 ∧ (b = a ∨ b = a + 1 ∨ b = a + 2))

/-- 31_decode_cache_and_run R310: while every cached byte is the byte memory holds, a fetch gives exactly what decoding the
instruction at PC afresh gives, and changes nothing but the cache and the cursor. -/
def Obligations.CacheIsTransparent : Prop :=
  ∀ (s : State) (f : FetchOut), s.CacheShaped → s.TraceCoherent → fetch s = .ok f →
    decodeAt s s.pc = .ok f.op ∧ f.state = { s with cache := f.state.cache, cur := f.state.cur }

/-- Every step keeps every memory in its canonical form. -/
def Obligations.StepKeepsMemoriesCanonical : Prop :=
  ∀ (s t : State), s.MemoriesCanonical → step s = .next t → t.MemoriesCanonical

/-- 10_state R59: every step keeps every memory inside its size and every palette cell and pixel within six bits. -/
def Obligations.StepKeepsMemoriesSized : Prop :=
  ∀ (s t : State), s.MemoriesSized → s.ColoursNarrow → step s = .next t → t.MemoriesSized ∧ t.ColoursNarrow

/-- Every step keeps the fixed values of B and U (10_state R54), the raster in range (50_ppu R640), and the windows in the
segments 51_cartridge_mapper R712 gives them. -/
def Obligations.StepKeepsStatusRasterAndWindows : Prop :=
  ∀ (s t : State), step s = .next t →
    (s.StatusFixed → t.StatusFixed) ∧ (s.RasterInRange → t.RasterInRange) ∧ (s.WindowsFixed → t.WindowsFixed)

/-- Every step keeps the shape of the decode cache and the cursor (31_decode_cache_and_run R303 to R307), and from a cache of
that shape no step raises `DispatchMiss` (30_encoding R273). -/
def Obligations.StepKeepsTheCacheShape : Prop :=
  ∀ (s : State), s.CacheShaped →
    (∀ t, step s = .next t → t.CacheShaped) ∧ (∀ k m, step s ≠ .fault (.dispatchMiss k m))

/-- The invariant holds at reset. -/
def Obligations.ResetMeetsTheInvariant : Prop := State.reset.Inv ∧ State.reset.TraceCoherent

/-! ## Reset, loading, the host and the controller -/

/-- 70_reset_and_hazards R950 and R951, for every value of the draws: what the power-on reset leaves in every piece of
state. -/
def Obligations.PowerOnResetValues : Prop :=
  ∀ (c : Config) (cart : Cartridge) (save : Option (List Byte)) (d : PowerOn),
    let s := powerOn c cart save d
    s.a = d.a ∧ s.x = d.x ∧ s.y = d.y ∧ s.sp = 0xFD ∧ flagI s.p = true ∧ flagU s.p = true ∧ flagB s.p = false ∧
    (∀ i ∈ [0, 1, 3, 6, 7], s.p.getLsbD i = d.flags.getLsbD i) ∧
    s.pc = vectorAt s 0xFFFC ∧ s.cache = [] ∧ s.cur = none ∧ s.cycles = 0 ∧ s.nmiLine = false ∧ s.irqLine = false ∧
    s.ram = d.ram ∧ s.ciram = d.ciram ∧ s.palette = d.palette ∧ s.oam = d.oam ∧ s.frame = d.frame ∧ s.chrRam = d.chrRam ∧
    s.prgRom = cart.prgRom ∧ s.chrRom = cart.chrRom ∧ s.cart = cart.info ∧ s.map = mapperReset cart.variant cart.info ∧
    s.ppu = { ctrl := 0, mask := 0, vblank := d.vblank, oamAddr := 0, v := 0, t := 0, x := 0, w := false, readBuffer := 0,
              line := 261, dot := 0, bgLo := 0, bgHi := 0, atLo := 0, atHi := 0, ntLatch := 0, atLatch := 0,
              ptLoLatch := 0, ptHiLatch := 0 } ∧
    s.pad = { input := 0, shift := 0, strobe := false } ∧
    (save = none → s.prgRam = d.prgRam) ∧
    (∀ file, save = some file → d.prgRam.wf = true → ∀ i < 8192,
      s.prgRam.read i = if i < file.length then file.getD i 0 else d.prgRam.read i)

/-- 51_cartridge_mapper R702 and R703: the header fields, the order of the load errors, and the segments of a loaded
cartridge. That a mapper number in `supportedMappers` which 00_scope R3 gives no variant is `UnknownMapper` is the model's
choice (log entry 16, DESIGN CHOICE). -/
def Obligations.LoadChecksTheImage : Prop :=
  ∀ (c : Config) (h : List Byte),
    let byte (k : Nat) : Nat := (h.getD k 0).toNat
    let nes2 : Bool := byte 7 / 4 % 4 = 2
    let mapperId := byte 6 / 16 + byte 7 / 16 * 16 + (if nes2 then byte 8 % 16 * 256 else 0)
    let prgCount := byte 4 + (if nes2 then byte 9 % 16 * 256 else 0)
    let chrCount := byte 5 + (if nes2 then byte 9 / 16 * 256 else 0)
    let start := 16 + (if byte 6 / 4 % 2 = 1 then 512 else 0)
    if h.length < 16 ∨ byte 0 ≠ 0x4E ∨ byte 1 ≠ 0x45 ∨ byte 2 ≠ 0x53 ∨ byte 3 ≠ 0x1A then load c h = .error .badHeader
    else if nes2 = true ∧ (byte 9 % 16 = 15 ∨ byte 9 / 16 = 15) then load c h = .error .badHeader
    else if prgCount = 0 then load c h = .error .badHeader
    else if mapperId ∉ c.supportedMappers ∨ mapperId ∉ [0, 1, 2, 3, 4, 7] then load c h = .error .unknownMapper
    else if h.length < start + 16384 * prgCount + 8192 * chrCount then load c h = .error .badHeader
    else ∃ cart : Cartridge, load c h = .ok cart ∧ cart.variant.number = mapperId ∧
      cart.info = { prgCount := prgCount, chrCount := chrCount, battery := decide (byte 6 / 2 % 2 = 1)
                    headerMirroring := if byte 6 % 2 = 1 then .vertical else .horizontal } ∧
      (∀ i < 16384 * prgCount, cart.prgRom.read i = h.getD (start + i) 0) ∧
      (∀ i < 8192 * chrCount, cart.chrRom.read i = h.getD (start + 16384 * prgCount + i) 0) ∧
      cart.prgRom.wf = true ∧ cart.chrRom.wf = true

/-- 52_machine_and_host R802 to R804, R806 and R821 and 31_decode_cache_and_run R300: the host calls. A `runCycles` call starts
with no cycles and no cursor; a count of 0 or less runs nothing and gives 0; the step that uses up the count ends the call with
three PPU dots for every cycle used and the count of cycles as its result. That the calls are
listed and that one step is one call or one round of a batch is the model's choice (log entries 5 and 14, DESIGN CHOICE), and so
is the tail of a longer save file, which is kept (log entry 12, DESIGN CHOICE). -/
def Obligations.HostCallsDoWhatTheyName : Prop :=
  (∀ (s : State) (rest : List HostCall), s.host.alive = true → s.host.running = none →
    let asked (c : HostCall) : State := { s with host := { s.host with calls := c :: rest } }
    let idle : State := { s with host := { s.host with calls := rest } }
    (∀ b, ∀ r ∈ [PpuReg.ctrl, .mask, .status, .oamAddr, .oamData, .scroll, .addr, .data][b.toNat % 8]?,
      (let o := ppuRegRead r idle
       step (asked (.regRead b)) = .next { o.state with host := { idle.host with out := .regValue o.value :: s.host.out } }) ∧
      (∀ d, step (asked (.regWrite b d)) = .next (ppuRegWrite r d idle))) ∧
    (∀ b, step (asked (.setInput b)) = .next { idle with pad := { s.pad with input := b } }) ∧
    (s.host.save = none → step (asked .syncSave) = .next idle) ∧
    (∀ file, s.host.save = some file → step (asked .syncSave) = .next { idle with
      host := { idle.host with save := some ((List.range 8192).map s.prgRam.read ++ file.drop 8192) } }) ∧
    step (asked .destroy) = .next { idle with host := { idle.host with alive := false } } ∧
    (∀ n : Int, n ≤ 0 → step (asked (.runCycles n)) = .next { idle with
      cycles := 0, cur := none, host := { idle.host with out := .ran 0 :: s.host.out } }) ∧
    (∀ n : Nat, 0 < n → step (asked (.runCycles n)) =
      step { idle with cycles := 0, cur := none, host := { idle.host with running := some n } })) ∧
  (∀ (s t : State) (n : Nat), s.host.alive = true → s.host.running = some n → s.cycles < n → cpuStep s = .next t →
    step s = .next (if t.cycles < n then t
      else
        let u := tick (3 * t.cycles) { t with host := { t.host with running := none } }
        { u with host := { u.host with out := .ran t.cycles :: u.host.out } }))

/-- 52_machine_and_host R810: a write to $4016 and a read of it; so after a strobe of 1 and then 0, eight reads give the buttons
from bit 0 to bit 7, and every further read gives 1. -/
def Obligations.ControllerShiftsOutEightButtons : Prop :=
  (∀ (p : Pad) (d : Byte), p.afterWrite d =
    { input := p.input, shift := if p.strobe = true ∨ d.getLsbD 0 = true then p.input else p.shift
      strobe := d.getLsbD 0 }) ∧
  (∀ (s : State),
    (padRead s).value.getLsbD 0 = (if s.pad.strobe then s.pad.input.getLsbD 0 else s.pad.shift.getLsbD 0) ∧
    (∀ i, 1 ≤ i → i < 8 → (padRead s).value.getLsbD i = (Config.draw s.draws).getLsbD i) ∧
    (padRead s).state = { s with
      draws := s.draws + 1
      pad := if s.pad.strobe then s.pad else { s.pad with shift := (s.pad.shift >>> 1) ||| 0x80 } }) ∧
  (∀ (p : Pad) (k : Nat),
    (padReads k ((p.afterWrite 1).afterWrite 0)).bit = if k < 8 then p.input.getLsbD k else true)
end

