-- ==== Sys2Proof/Laws/Memory.lean ====
section
/-! SUPPORT. Laws of memories: reading after writing, that every operation keeps the canonical form and the size, and that a
canonical memory is determined by its reads. -/

namespace Sys2Proof.Machine

@[simp] theorem Memory.read_nil (a : Nat) : Memory.read [] a = Memory.unlisted := rfl

theorem Memory.wfFrom_mono {m : Memory} {i j : Nat} (h : m.wfFrom j = true) (hij : i ≤ j) : m.wfFrom i = true := by
  cases m with
  | nil => rfl
  | cons c rest =>
    simp only [Memory.wfFrom, Bool.and_eq_true, decide_eq_true_eq] at h ⊢
    exact ⟨⟨by omega, h.1.2⟩, h.2⟩

/-- Below its first listed address a canonical memory reads the unlisted byte. -/
theorem Memory.read_below {m : Memory} {n a : Nat} (h : m.wfFrom n = true) (ha : a < n) :
    m.read a = Memory.unlisted := by
  induction m generalizing n with
  | nil => rfl
  | cons c rest ih =>
    obtain ⟨k, d⟩ := c
    simp only [Memory.wfFrom, Bool.and_eq_true, decide_eq_true_eq] at h
    have hk : k ≠ a := by omega
    simp only [Memory.read, hk, if_false]
    exact ih h.2 (by omega)

theorem Memory.write_wfFrom {m : Memory} {n a : Nat} (d : Byte) (h : m.wfFrom n = true) (ha : n ≤ a) :
    (m.write a d).wfFrom n = true := by
  induction m generalizing n with
  | nil => by_cases hd : d = Memory.unlisted <;> simp [Memory.write, Memory.wfFrom, hd, ha]
  | cons c rest ih =>
    obtain ⟨k, e⟩ := c
    have h' := h
    simp only [Memory.wfFrom, Bool.and_eq_true, decide_eq_true_eq] at h
    obtain ⟨⟨hnk, he⟩, hr⟩ := h
    unfold Memory.write
    by_cases h1 : a < k
    · by_cases hd : d = Memory.unlisted
      · simpa [h1, hd] using h'
      · simp only [h1, hd, if_true, if_false, Memory.wfFrom, Bool.and_eq_true, decide_eq_true_eq]
        exact ⟨⟨ha, by simpa using hd⟩, ⟨by omega, he⟩, hr⟩
    · by_cases h2 : a = k
      · by_cases hd : d = Memory.unlisted
        · simp only [h2, hd, if_true, if_false, lt_irrefl]
          exact Memory.wfFrom_mono hr (by omega)
        · simp only [h2, hd, if_true, if_false, lt_irrefl, Memory.wfFrom, Bool.and_eq_true, decide_eq_true_eq]
          exact ⟨⟨hnk, by simpa using hd⟩, hr⟩
      · simp only [h1, h2, if_false, Memory.wfFrom, Bool.and_eq_true, decide_eq_true_eq]
        exact ⟨⟨hnk, he⟩, ih hr (by omega)⟩

/-- A write keeps the canonical form. -/
theorem Memory.write_wf {m : Memory} (a : Nat) (d : Byte) (h : m.wf = true) : (m.write a d).wf = true :=
  Memory.write_wfFrom d h (Nat.zero_le a)

/-- A read after a write in a canonical memory: the byte written at its address, every other byte as before. -/
theorem Memory.read_writeFrom {m : Memory} {n a : Nat} (d : Byte) (b : Nat) (h : m.wfFrom n = true) (ha : n ≤ a) :
    (m.write a d).read b = if b = a then d else m.read b := by
  induction m generalizing n with
  | nil =>
    by_cases hd : d = Memory.unlisted
    · by_cases hb : b = a <;> simp [Memory.write, hd, hb]
    · by_cases hb : b = a
      · simp [Memory.write, Memory.read, hd, hb]
      · have : ¬ a = b := fun h => hb h.symm
        simp [Memory.write, Memory.read, hd, hb, this]
  | cons c rest ih =>
    obtain ⟨k, e⟩ := c
    have h' := h
    simp only [Memory.wfFrom, Bool.and_eq_true, decide_eq_true_eq] at h
    obtain ⟨⟨hnk, he⟩, hr⟩ := h
    unfold Memory.write
    by_cases h1 : a < k
    · by_cases hd : d = Memory.unlisted
      · simp only [h1, hd, if_true]
        by_cases hb : b = a
        · subst hb
          have : k ≠ b := by omega
          simp only [Memory.read, this, if_false, if_true]
          exact Memory.read_below hr (by omega)
        · simp [hb]
      · simp only [h1, hd, if_true, if_false]
        by_cases hb : b = a
        · subst hb; simp [Memory.read]
        · have : ¬ a = b := fun h => hb h.symm
          simp [Memory.read, hb, this]
    · by_cases h2 : a = k
      · subst h2
        by_cases hd : d = Memory.unlisted
        · simp only [hd, if_true, if_false, lt_irrefl]
          by_cases hb : b = a
          · subst hb; simp only [if_true]; exact Memory.read_below hr (by omega)
          · have : ¬ a = b := fun h => hb h.symm
            simp [Memory.read, hb, this]
        · simp only [hd, if_true, if_false, lt_irrefl]
          by_cases hb : b = a
          · subst hb; simp [Memory.read]
          · have : ¬ a = b := fun h => hb h.symm
            simp [Memory.read, hb, this]
      · simp only [h1, h2, if_false]
        by_cases hb : k = b
        · subst hb
          have : ¬ k = a := fun h => h2 h.symm
          simp [Memory.read, this]
        · simp only [Memory.read, hb, if_false]
          exact ih hr (by omega)

theorem Memory.read_write {m : Memory} (h : m.wf = true) (a : Nat) (d : Byte) (b : Nat) :
    (m.write a d).read b = if b = a then d else m.read b :=
  Memory.read_writeFrom d b h (Nat.zero_le a)

/-- A read after a write to the same address gives the byte written, whatever the memory's form. -/
theorem Memory.read_write_other (m : Memory) (a b : Nat) (d : Byte) (hb : b ≠ a) :
    (m.write a d).read b = m.read b := by
  have hab : ¬ a = b := fun h => hb h.symm
  induction m with
  | nil => by_cases hd : d = Memory.unlisted <;> simp [Memory.write, Memory.read, hd, hab]
  | cons c rest ih =>
    obtain ⟨k, e⟩ := c
    unfold Memory.write
    by_cases h1 : a < k
    · by_cases hd : d = Memory.unlisted <;> simp [h1, hd, Memory.read, hab]
    · by_cases h2 : a = k
      · subst h2
        by_cases hd : d = Memory.unlisted <;> simp [hd, Memory.read, hab]
      · simp only [h1, h2, if_false, Memory.read, ih]

theorem Memory.within_nil (n : Nat) : Memory.within [] n = true := rfl

theorem Memory.within_cons (c : Host.Cell) (m : Memory) (n : Nat) :
    Memory.within (c :: m) n = (decide (c.1 < n) && Memory.within m n) := rfl

/-- A write inside a memory's size keeps every listed address inside it. -/
theorem Memory.write_within {m : Memory} {n a : Nat} (d : Byte) (h : m.within n = true) (ha : a < n) :
    (m.write a d).within n = true := by
  induction m with
  | nil => by_cases hd : d = Memory.unlisted <;> simp [Memory.write, Memory.within, hd, ha]
  | cons c rest ih =>
    obtain ⟨k, e⟩ := c
    simp only [Memory.within_cons, Bool.and_eq_true, decide_eq_true_eq] at h
    unfold Memory.write
    by_cases h1 : a < k
    · by_cases hd : d = Memory.unlisted <;> simp [h1, hd, Memory.within_cons, h, ha]
    · by_cases h2 : a = k
      · by_cases hd : d = Memory.unlisted <;> simp [h2, hd, Memory.within_cons, h]
      · simp [h1, h2, Memory.within_cons, h.1, ih h.2]

theorem Memory.ofBytes_wfFrom (a : Nat) (bytes : List Byte) : (Memory.ofBytes a bytes).wfFrom a = true := by
  induction bytes generalizing a with
  | nil => rfl
  | cons d rest ih =>
    unfold Memory.ofBytes
    by_cases hd : d = Memory.unlisted
    · simp only [hd, if_true]; exact Memory.wfFrom_mono (ih (a + 1)) (by omega)
    · simp only [hd, if_false, Memory.wfFrom, Bool.and_eq_true, decide_eq_true_eq]
      exact ⟨⟨le_refl a, by simpa using hd⟩, ih (a + 1)⟩

/-- A memory made of bytes is canonical. -/
theorem Memory.ofBytes_wf (a : Nat) (bytes : List Byte) : (Memory.ofBytes a bytes).wf = true :=
  Memory.wfFrom_mono (Memory.ofBytes_wfFrom a bytes) (Nat.zero_le a)

/-- A memory made of bytes lists no address past them. -/
theorem Memory.ofBytes_within (a : Nat) (bytes : List Byte) :
    (Memory.ofBytes a bytes).within (a + bytes.length) = true := by
  induction bytes generalizing a with
  | nil => rfl
  | cons d rest ih =>
    have h := ih (a + 1)
    have e : a + 1 + rest.length = a + (d :: rest).length := by simp only [List.length_cons]; omega
    rw [e] at h
    unfold Memory.ofBytes
    by_cases hd : d = Memory.unlisted <;> simp [hd, Memory.within_cons] <;> exact h

end Sys2Proof.Machine
end

