-- ==== Sys2Proof/Laws/State.lean ====
section
/-! SUPPORT. One lemma for each field of the state and each setter: what a setter writes and that it writes nothing else. -/

namespace Sys2Proof.Machine

@[simp] theorem State.setA_config (s : State) (v : Byte) : (s.setA v).config = s.config := rfl
@[simp] theorem State.setA_a (s : State) (v : Byte) : (s.setA v).a = v := rfl
@[simp] theorem State.setA_x (s : State) (v : Byte) : (s.setA v).x = s.x := rfl
@[simp] theorem State.setA_y (s : State) (v : Byte) : (s.setA v).y = s.y := rfl
@[simp] theorem State.setA_sp (s : State) (v : Byte) : (s.setA v).sp = s.sp := rfl
@[simp] theorem State.setA_p (s : State) (v : Byte) : (s.setA v).p = s.p := rfl
@[simp] theorem State.setA_pc (s : State) (v : Byte) : (s.setA v).pc = s.pc := rfl
@[simp] theorem State.setA_cache (s : State) (v : Byte) : (s.setA v).cache = s.cache := rfl
@[simp] theorem State.setA_cur (s : State) (v : Byte) : (s.setA v).cur = s.cur := rfl
@[simp] theorem State.setA_cycles (s : State) (v : Byte) : (s.setA v).cycles = s.cycles := rfl
@[simp] theorem State.setA_nmiLine (s : State) (v : Byte) : (s.setA v).nmiLine = s.nmiLine := rfl
@[simp] theorem State.setA_irqLine (s : State) (v : Byte) : (s.setA v).irqLine = s.irqLine := rfl
@[simp] theorem State.setA_ram (s : State) (v : Byte) : (s.setA v).ram = s.ram := rfl
@[simp] theorem State.setA_prgRom (s : State) (v : Byte) : (s.setA v).prgRom = s.prgRom := rfl
@[simp] theorem State.setA_prgRam (s : State) (v : Byte) : (s.setA v).prgRam = s.prgRam := rfl
@[simp] theorem State.setA_chrRom (s : State) (v : Byte) : (s.setA v).chrRom = s.chrRom := rfl
@[simp] theorem State.setA_chrRam (s : State) (v : Byte) : (s.setA v).chrRam = s.chrRam := rfl
@[simp] theorem State.setA_ciram (s : State) (v : Byte) : (s.setA v).ciram = s.ciram := rfl
@[simp] theorem State.setA_palette (s : State) (v : Byte) : (s.setA v).palette = s.palette := rfl
@[simp] theorem State.setA_oam (s : State) (v : Byte) : (s.setA v).oam = s.oam := rfl
@[simp] theorem State.setA_frame (s : State) (v : Byte) : (s.setA v).frame = s.frame := rfl
@[simp] theorem State.setA_ppu (s : State) (v : Byte) : (s.setA v).ppu = s.ppu := rfl
@[simp] theorem State.setA_cart (s : State) (v : Byte) : (s.setA v).cart = s.cart := rfl
@[simp] theorem State.setA_map (s : State) (v : Byte) : (s.setA v).map = s.map := rfl
@[simp] theorem State.setA_pad (s : State) (v : Byte) : (s.setA v).pad = s.pad := rfl
@[simp] theorem State.setA_draws (s : State) (v : Byte) : (s.setA v).draws = s.draws := rfl
@[simp] theorem State.setA_host (s : State) (v : Byte) : (s.setA v).host = s.host := rfl
@[simp] theorem State.setX_config (s : State) (v : Byte) : (s.setX v).config = s.config := rfl
@[simp] theorem State.setX_a (s : State) (v : Byte) : (s.setX v).a = s.a := rfl
@[simp] theorem State.setX_x (s : State) (v : Byte) : (s.setX v).x = v := rfl
@[simp] theorem State.setX_y (s : State) (v : Byte) : (s.setX v).y = s.y := rfl
@[simp] theorem State.setX_sp (s : State) (v : Byte) : (s.setX v).sp = s.sp := rfl
@[simp] theorem State.setX_p (s : State) (v : Byte) : (s.setX v).p = s.p := rfl
@[simp] theorem State.setX_pc (s : State) (v : Byte) : (s.setX v).pc = s.pc := rfl
@[simp] theorem State.setX_cache (s : State) (v : Byte) : (s.setX v).cache = s.cache := rfl
@[simp] theorem State.setX_cur (s : State) (v : Byte) : (s.setX v).cur = s.cur := rfl
@[simp] theorem State.setX_cycles (s : State) (v : Byte) : (s.setX v).cycles = s.cycles := rfl
@[simp] theorem State.setX_nmiLine (s : State) (v : Byte) : (s.setX v).nmiLine = s.nmiLine := rfl
@[simp] theorem State.setX_irqLine (s : State) (v : Byte) : (s.setX v).irqLine = s.irqLine := rfl
@[simp] theorem State.setX_ram (s : State) (v : Byte) : (s.setX v).ram = s.ram := rfl
@[simp] theorem State.setX_prgRom (s : State) (v : Byte) : (s.setX v).prgRom = s.prgRom := rfl
@[simp] theorem State.setX_prgRam (s : State) (v : Byte) : (s.setX v).prgRam = s.prgRam := rfl
@[simp] theorem State.setX_chrRom (s : State) (v : Byte) : (s.setX v).chrRom = s.chrRom := rfl
@[simp] theorem State.setX_chrRam (s : State) (v : Byte) : (s.setX v).chrRam = s.chrRam := rfl
@[simp] theorem State.setX_ciram (s : State) (v : Byte) : (s.setX v).ciram = s.ciram := rfl
@[simp] theorem State.setX_palette (s : State) (v : Byte) : (s.setX v).palette = s.palette := rfl
@[simp] theorem State.setX_oam (s : State) (v : Byte) : (s.setX v).oam = s.oam := rfl
@[simp] theorem State.setX_frame (s : State) (v : Byte) : (s.setX v).frame = s.frame := rfl
@[simp] theorem State.setX_ppu (s : State) (v : Byte) : (s.setX v).ppu = s.ppu := rfl
@[simp] theorem State.setX_cart (s : State) (v : Byte) : (s.setX v).cart = s.cart := rfl
@[simp] theorem State.setX_map (s : State) (v : Byte) : (s.setX v).map = s.map := rfl
@[simp] theorem State.setX_pad (s : State) (v : Byte) : (s.setX v).pad = s.pad := rfl
@[simp] theorem State.setX_draws (s : State) (v : Byte) : (s.setX v).draws = s.draws := rfl
@[simp] theorem State.setX_host (s : State) (v : Byte) : (s.setX v).host = s.host := rfl
@[simp] theorem State.setY_config (s : State) (v : Byte) : (s.setY v).config = s.config := rfl
@[simp] theorem State.setY_a (s : State) (v : Byte) : (s.setY v).a = s.a := rfl
@[simp] theorem State.setY_x (s : State) (v : Byte) : (s.setY v).x = s.x := rfl
@[simp] theorem State.setY_y (s : State) (v : Byte) : (s.setY v).y = v := rfl
@[simp] theorem State.setY_sp (s : State) (v : Byte) : (s.setY v).sp = s.sp := rfl
@[simp] theorem State.setY_p (s : State) (v : Byte) : (s.setY v).p = s.p := rfl
@[simp] theorem State.setY_pc (s : State) (v : Byte) : (s.setY v).pc = s.pc := rfl
@[simp] theorem State.setY_cache (s : State) (v : Byte) : (s.setY v).cache = s.cache := rfl
@[simp] theorem State.setY_cur (s : State) (v : Byte) : (s.setY v).cur = s.cur := rfl
@[simp] theorem State.setY_cycles (s : State) (v : Byte) : (s.setY v).cycles = s.cycles := rfl
@[simp] theorem State.setY_nmiLine (s : State) (v : Byte) : (s.setY v).nmiLine = s.nmiLine := rfl
@[simp] theorem State.setY_irqLine (s : State) (v : Byte) : (s.setY v).irqLine = s.irqLine := rfl
@[simp] theorem State.setY_ram (s : State) (v : Byte) : (s.setY v).ram = s.ram := rfl
@[simp] theorem State.setY_prgRom (s : State) (v : Byte) : (s.setY v).prgRom = s.prgRom := rfl
@[simp] theorem State.setY_prgRam (s : State) (v : Byte) : (s.setY v).prgRam = s.prgRam := rfl
@[simp] theorem State.setY_chrRom (s : State) (v : Byte) : (s.setY v).chrRom = s.chrRom := rfl
@[simp] theorem State.setY_chrRam (s : State) (v : Byte) : (s.setY v).chrRam = s.chrRam := rfl
@[simp] theorem State.setY_ciram (s : State) (v : Byte) : (s.setY v).ciram = s.ciram := rfl
@[simp] theorem State.setY_palette (s : State) (v : Byte) : (s.setY v).palette = s.palette := rfl
@[simp] theorem State.setY_oam (s : State) (v : Byte) : (s.setY v).oam = s.oam := rfl
@[simp] theorem State.setY_frame (s : State) (v : Byte) : (s.setY v).frame = s.frame := rfl
@[simp] theorem State.setY_ppu (s : State) (v : Byte) : (s.setY v).ppu = s.ppu := rfl
@[simp] theorem State.setY_cart (s : State) (v : Byte) : (s.setY v).cart = s.cart := rfl
@[simp] theorem State.setY_map (s : State) (v : Byte) : (s.setY v).map = s.map := rfl
@[simp] theorem State.setY_pad (s : State) (v : Byte) : (s.setY v).pad = s.pad := rfl
@[simp] theorem State.setY_draws (s : State) (v : Byte) : (s.setY v).draws = s.draws := rfl
@[simp] theorem State.setY_host (s : State) (v : Byte) : (s.setY v).host = s.host := rfl
@[simp] theorem State.setSp_config (s : State) (v : Byte) : (s.setSp v).config = s.config := rfl
@[simp] theorem State.setSp_a (s : State) (v : Byte) : (s.setSp v).a = s.a := rfl
@[simp] theorem State.setSp_x (s : State) (v : Byte) : (s.setSp v).x = s.x := rfl
@[simp] theorem State.setSp_y (s : State) (v : Byte) : (s.setSp v).y = s.y := rfl
@[simp] theorem State.setSp_sp (s : State) (v : Byte) : (s.setSp v).sp = v := rfl
@[simp] theorem State.setSp_p (s : State) (v : Byte) : (s.setSp v).p = s.p := rfl
@[simp] theorem State.setSp_pc (s : State) (v : Byte) : (s.setSp v).pc = s.pc := rfl
@[simp] theorem State.setSp_cache (s : State) (v : Byte) : (s.setSp v).cache = s.cache := rfl
@[simp] theorem State.setSp_cur (s : State) (v : Byte) : (s.setSp v).cur = s.cur := rfl
@[simp] theorem State.setSp_cycles (s : State) (v : Byte) : (s.setSp v).cycles = s.cycles := rfl
@[simp] theorem State.setSp_nmiLine (s : State) (v : Byte) : (s.setSp v).nmiLine = s.nmiLine := rfl
@[simp] theorem State.setSp_irqLine (s : State) (v : Byte) : (s.setSp v).irqLine = s.irqLine := rfl
@[simp] theorem State.setSp_ram (s : State) (v : Byte) : (s.setSp v).ram = s.ram := rfl
@[simp] theorem State.setSp_prgRom (s : State) (v : Byte) : (s.setSp v).prgRom = s.prgRom := rfl
@[simp] theorem State.setSp_prgRam (s : State) (v : Byte) : (s.setSp v).prgRam = s.prgRam := rfl
@[simp] theorem State.setSp_chrRom (s : State) (v : Byte) : (s.setSp v).chrRom = s.chrRom := rfl
@[simp] theorem State.setSp_chrRam (s : State) (v : Byte) : (s.setSp v).chrRam = s.chrRam := rfl
@[simp] theorem State.setSp_ciram (s : State) (v : Byte) : (s.setSp v).ciram = s.ciram := rfl
@[simp] theorem State.setSp_palette (s : State) (v : Byte) : (s.setSp v).palette = s.palette := rfl
@[simp] theorem State.setSp_oam (s : State) (v : Byte) : (s.setSp v).oam = s.oam := rfl
@[simp] theorem State.setSp_frame (s : State) (v : Byte) : (s.setSp v).frame = s.frame := rfl
@[simp] theorem State.setSp_ppu (s : State) (v : Byte) : (s.setSp v).ppu = s.ppu := rfl
@[simp] theorem State.setSp_cart (s : State) (v : Byte) : (s.setSp v).cart = s.cart := rfl
@[simp] theorem State.setSp_map (s : State) (v : Byte) : (s.setSp v).map = s.map := rfl
@[simp] theorem State.setSp_pad (s : State) (v : Byte) : (s.setSp v).pad = s.pad := rfl
@[simp] theorem State.setSp_draws (s : State) (v : Byte) : (s.setSp v).draws = s.draws := rfl
@[simp] theorem State.setSp_host (s : State) (v : Byte) : (s.setSp v).host = s.host := rfl
@[simp] theorem State.setP_config (s : State) (v : Byte) : (s.setP v).config = s.config := rfl
@[simp] theorem State.setP_a (s : State) (v : Byte) : (s.setP v).a = s.a := rfl
@[simp] theorem State.setP_x (s : State) (v : Byte) : (s.setP v).x = s.x := rfl
@[simp] theorem State.setP_y (s : State) (v : Byte) : (s.setP v).y = s.y := rfl
@[simp] theorem State.setP_sp (s : State) (v : Byte) : (s.setP v).sp = s.sp := rfl
@[simp] theorem State.setP_p (s : State) (v : Byte) : (s.setP v).p = v := rfl
@[simp] theorem State.setP_pc (s : State) (v : Byte) : (s.setP v).pc = s.pc := rfl
@[simp] theorem State.setP_cache (s : State) (v : Byte) : (s.setP v).cache = s.cache := rfl
@[simp] theorem State.setP_cur (s : State) (v : Byte) : (s.setP v).cur = s.cur := rfl
@[simp] theorem State.setP_cycles (s : State) (v : Byte) : (s.setP v).cycles = s.cycles := rfl
@[simp] theorem State.setP_nmiLine (s : State) (v : Byte) : (s.setP v).nmiLine = s.nmiLine := rfl
@[simp] theorem State.setP_irqLine (s : State) (v : Byte) : (s.setP v).irqLine = s.irqLine := rfl
@[simp] theorem State.setP_ram (s : State) (v : Byte) : (s.setP v).ram = s.ram := rfl
@[simp] theorem State.setP_prgRom (s : State) (v : Byte) : (s.setP v).prgRom = s.prgRom := rfl
@[simp] theorem State.setP_prgRam (s : State) (v : Byte) : (s.setP v).prgRam = s.prgRam := rfl
@[simp] theorem State.setP_chrRom (s : State) (v : Byte) : (s.setP v).chrRom = s.chrRom := rfl
@[simp] theorem State.setP_chrRam (s : State) (v : Byte) : (s.setP v).chrRam = s.chrRam := rfl
@[simp] theorem State.setP_ciram (s : State) (v : Byte) : (s.setP v).ciram = s.ciram := rfl
@[simp] theorem State.setP_palette (s : State) (v : Byte) : (s.setP v).palette = s.palette := rfl
@[simp] theorem State.setP_oam (s : State) (v : Byte) : (s.setP v).oam = s.oam := rfl
@[simp] theorem State.setP_frame (s : State) (v : Byte) : (s.setP v).frame = s.frame := rfl
@[simp] theorem State.setP_ppu (s : State) (v : Byte) : (s.setP v).ppu = s.ppu := rfl
@[simp] theorem State.setP_cart (s : State) (v : Byte) : (s.setP v).cart = s.cart := rfl
@[simp] theorem State.setP_map (s : State) (v : Byte) : (s.setP v).map = s.map := rfl
@[simp] theorem State.setP_pad (s : State) (v : Byte) : (s.setP v).pad = s.pad := rfl
@[simp] theorem State.setP_draws (s : State) (v : Byte) : (s.setP v).draws = s.draws := rfl
@[simp] theorem State.setP_host (s : State) (v : Byte) : (s.setP v).host = s.host := rfl
@[simp] theorem State.setPc_config (s : State) (v : Word) : (s.setPc v).config = s.config := rfl
@[simp] theorem State.setPc_a (s : State) (v : Word) : (s.setPc v).a = s.a := rfl
@[simp] theorem State.setPc_x (s : State) (v : Word) : (s.setPc v).x = s.x := rfl
@[simp] theorem State.setPc_y (s : State) (v : Word) : (s.setPc v).y = s.y := rfl
@[simp] theorem State.setPc_sp (s : State) (v : Word) : (s.setPc v).sp = s.sp := rfl
@[simp] theorem State.setPc_p (s : State) (v : Word) : (s.setPc v).p = s.p := rfl
@[simp] theorem State.setPc_pc (s : State) (v : Word) : (s.setPc v).pc = v := rfl
@[simp] theorem State.setPc_cache (s : State) (v : Word) : (s.setPc v).cache = s.cache := rfl
@[simp] theorem State.setPc_cur (s : State) (v : Word) : (s.setPc v).cur = s.cur := rfl
@[simp] theorem State.setPc_cycles (s : State) (v : Word) : (s.setPc v).cycles = s.cycles := rfl
@[simp] theorem State.setPc_nmiLine (s : State) (v : Word) : (s.setPc v).nmiLine = s.nmiLine := rfl
@[simp] theorem State.setPc_irqLine (s : State) (v : Word) : (s.setPc v).irqLine = s.irqLine := rfl
@[simp] theorem State.setPc_ram (s : State) (v : Word) : (s.setPc v).ram = s.ram := rfl
@[simp] theorem State.setPc_prgRom (s : State) (v : Word) : (s.setPc v).prgRom = s.prgRom := rfl
@[simp] theorem State.setPc_prgRam (s : State) (v : Word) : (s.setPc v).prgRam = s.prgRam := rfl
@[simp] theorem State.setPc_chrRom (s : State) (v : Word) : (s.setPc v).chrRom = s.chrRom := rfl
@[simp] theorem State.setPc_chrRam (s : State) (v : Word) : (s.setPc v).chrRam = s.chrRam := rfl
@[simp] theorem State.setPc_ciram (s : State) (v : Word) : (s.setPc v).ciram = s.ciram := rfl
@[simp] theorem State.setPc_palette (s : State) (v : Word) : (s.setPc v).palette = s.palette := rfl
@[simp] theorem State.setPc_oam (s : State) (v : Word) : (s.setPc v).oam = s.oam := rfl
@[simp] theorem State.setPc_frame (s : State) (v : Word) : (s.setPc v).frame = s.frame := rfl
@[simp] theorem State.setPc_ppu (s : State) (v : Word) : (s.setPc v).ppu = s.ppu := rfl
@[simp] theorem State.setPc_cart (s : State) (v : Word) : (s.setPc v).cart = s.cart := rfl
@[simp] theorem State.setPc_map (s : State) (v : Word) : (s.setPc v).map = s.map := rfl
@[simp] theorem State.setPc_pad (s : State) (v : Word) : (s.setPc v).pad = s.pad := rfl
@[simp] theorem State.setPc_draws (s : State) (v : Word) : (s.setPc v).draws = s.draws := rfl
@[simp] theorem State.setPc_host (s : State) (v : Word) : (s.setPc v).host = s.host := rfl
@[simp] theorem State.setCache_config (s : State) (v : List (Word × Trace)) : (s.setCache v).config = s.config := rfl
@[simp] theorem State.setCache_a (s : State) (v : List (Word × Trace)) : (s.setCache v).a = s.a := rfl
@[simp] theorem State.setCache_x (s : State) (v : List (Word × Trace)) : (s.setCache v).x = s.x := rfl
@[simp] theorem State.setCache_y (s : State) (v : List (Word × Trace)) : (s.setCache v).y = s.y := rfl
@[simp] theorem State.setCache_sp (s : State) (v : List (Word × Trace)) : (s.setCache v).sp = s.sp := rfl
@[simp] theorem State.setCache_p (s : State) (v : List (Word × Trace)) : (s.setCache v).p = s.p := rfl
@[simp] theorem State.setCache_pc (s : State) (v : List (Word × Trace)) : (s.setCache v).pc = s.pc := rfl
@[simp] theorem State.setCache_cache (s : State) (v : List (Word × Trace)) : (s.setCache v).cache = v := rfl
@[simp] theorem State.setCache_cur (s : State) (v : List (Word × Trace)) : (s.setCache v).cur = s.cur := rfl
@[simp] theorem State.setCache_cycles (s : State) (v : List (Word × Trace)) : (s.setCache v).cycles = s.cycles := rfl
@[simp] theorem State.setCache_nmiLine (s : State) (v : List (Word × Trace)) : (s.setCache v).nmiLine = s.nmiLine := rfl
@[simp] theorem State.setCache_irqLine (s : State) (v : List (Word × Trace)) : (s.setCache v).irqLine = s.irqLine := rfl
@[simp] theorem State.setCache_ram (s : State) (v : List (Word × Trace)) : (s.setCache v).ram = s.ram := rfl
@[simp] theorem State.setCache_prgRom (s : State) (v : List (Word × Trace)) : (s.setCache v).prgRom = s.prgRom := rfl
@[simp] theorem State.setCache_prgRam (s : State) (v : List (Word × Trace)) : (s.setCache v).prgRam = s.prgRam := rfl
@[simp] theorem State.setCache_chrRom (s : State) (v : List (Word × Trace)) : (s.setCache v).chrRom = s.chrRom := rfl
@[simp] theorem State.setCache_chrRam (s : State) (v : List (Word × Trace)) : (s.setCache v).chrRam = s.chrRam := rfl
@[simp] theorem State.setCache_ciram (s : State) (v : List (Word × Trace)) : (s.setCache v).ciram = s.ciram := rfl
@[simp] theorem State.setCache_palette (s : State) (v : List (Word × Trace)) : (s.setCache v).palette = s.palette := rfl
@[simp] theorem State.setCache_oam (s : State) (v : List (Word × Trace)) : (s.setCache v).oam = s.oam := rfl
@[simp] theorem State.setCache_frame (s : State) (v : List (Word × Trace)) : (s.setCache v).frame = s.frame := rfl
@[simp] theorem State.setCache_ppu (s : State) (v : List (Word × Trace)) : (s.setCache v).ppu = s.ppu := rfl
@[simp] theorem State.setCache_cart (s : State) (v : List (Word × Trace)) : (s.setCache v).cart = s.cart := rfl
@[simp] theorem State.setCache_map (s : State) (v : List (Word × Trace)) : (s.setCache v).map = s.map := rfl
@[simp] theorem State.setCache_pad (s : State) (v : List (Word × Trace)) : (s.setCache v).pad = s.pad := rfl
@[simp] theorem State.setCache_draws (s : State) (v : List (Word × Trace)) : (s.setCache v).draws = s.draws := rfl
@[simp] theorem State.setCache_host (s : State) (v : List (Word × Trace)) : (s.setCache v).host = s.host := rfl
@[simp] theorem State.setCur_config (s : State) (v : Option (Word × Nat)) : (s.setCur v).config = s.config := rfl
@[simp] theorem State.setCur_a (s : State) (v : Option (Word × Nat)) : (s.setCur v).a = s.a := rfl
@[simp] theorem State.setCur_x (s : State) (v : Option (Word × Nat)) : (s.setCur v).x = s.x := rfl
@[simp] theorem State.setCur_y (s : State) (v : Option (Word × Nat)) : (s.setCur v).y = s.y := rfl
@[simp] theorem State.setCur_sp (s : State) (v : Option (Word × Nat)) : (s.setCur v).sp = s.sp := rfl
@[simp] theorem State.setCur_p (s : State) (v : Option (Word × Nat)) : (s.setCur v).p = s.p := rfl
@[simp] theorem State.setCur_pc (s : State) (v : Option (Word × Nat)) : (s.setCur v).pc = s.pc := rfl
@[simp] theorem State.setCur_cache (s : State) (v : Option (Word × Nat)) : (s.setCur v).cache = s.cache := rfl
@[simp] theorem State.setCur_cur (s : State) (v : Option (Word × Nat)) : (s.setCur v).cur = v := rfl
@[simp] theorem State.setCur_cycles (s : State) (v : Option (Word × Nat)) : (s.setCur v).cycles = s.cycles := rfl
@[simp] theorem State.setCur_nmiLine (s : State) (v : Option (Word × Nat)) : (s.setCur v).nmiLine = s.nmiLine := rfl
@[simp] theorem State.setCur_irqLine (s : State) (v : Option (Word × Nat)) : (s.setCur v).irqLine = s.irqLine := rfl
@[simp] theorem State.setCur_ram (s : State) (v : Option (Word × Nat)) : (s.setCur v).ram = s.ram := rfl
@[simp] theorem State.setCur_prgRom (s : State) (v : Option (Word × Nat)) : (s.setCur v).prgRom = s.prgRom := rfl
@[simp] theorem State.setCur_prgRam (s : State) (v : Option (Word × Nat)) : (s.setCur v).prgRam = s.prgRam := rfl
@[simp] theorem State.setCur_chrRom (s : State) (v : Option (Word × Nat)) : (s.setCur v).chrRom = s.chrRom := rfl
@[simp] theorem State.setCur_chrRam (s : State) (v : Option (Word × Nat)) : (s.setCur v).chrRam = s.chrRam := rfl
@[simp] theorem State.setCur_ciram (s : State) (v : Option (Word × Nat)) : (s.setCur v).ciram = s.ciram := rfl
@[simp] theorem State.setCur_palette (s : State) (v : Option (Word × Nat)) : (s.setCur v).palette = s.palette := rfl
@[simp] theorem State.setCur_oam (s : State) (v : Option (Word × Nat)) : (s.setCur v).oam = s.oam := rfl
@[simp] theorem State.setCur_frame (s : State) (v : Option (Word × Nat)) : (s.setCur v).frame = s.frame := rfl
@[simp] theorem State.setCur_ppu (s : State) (v : Option (Word × Nat)) : (s.setCur v).ppu = s.ppu := rfl
@[simp] theorem State.setCur_cart (s : State) (v : Option (Word × Nat)) : (s.setCur v).cart = s.cart := rfl
@[simp] theorem State.setCur_map (s : State) (v : Option (Word × Nat)) : (s.setCur v).map = s.map := rfl
@[simp] theorem State.setCur_pad (s : State) (v : Option (Word × Nat)) : (s.setCur v).pad = s.pad := rfl
@[simp] theorem State.setCur_draws (s : State) (v : Option (Word × Nat)) : (s.setCur v).draws = s.draws := rfl
@[simp] theorem State.setCur_host (s : State) (v : Option (Word × Nat)) : (s.setCur v).host = s.host := rfl
@[simp] theorem State.setCycles_config (s : State) (v : Nat) : (s.setCycles v).config = s.config := rfl
@[simp] theorem State.setCycles_a (s : State) (v : Nat) : (s.setCycles v).a = s.a := rfl
@[simp] theorem State.setCycles_x (s : State) (v : Nat) : (s.setCycles v).x = s.x := rfl
@[simp] theorem State.setCycles_y (s : State) (v : Nat) : (s.setCycles v).y = s.y := rfl
@[simp] theorem State.setCycles_sp (s : State) (v : Nat) : (s.setCycles v).sp = s.sp := rfl
@[simp] theorem State.setCycles_p (s : State) (v : Nat) : (s.setCycles v).p = s.p := rfl
@[simp] theorem State.setCycles_pc (s : State) (v : Nat) : (s.setCycles v).pc = s.pc := rfl
@[simp] theorem State.setCycles_cache (s : State) (v : Nat) : (s.setCycles v).cache = s.cache := rfl
@[simp] theorem State.setCycles_cur (s : State) (v : Nat) : (s.setCycles v).cur = s.cur := rfl
@[simp] theorem State.setCycles_cycles (s : State) (v : Nat) : (s.setCycles v).cycles = v := rfl
@[simp] theorem State.setCycles_nmiLine (s : State) (v : Nat) : (s.setCycles v).nmiLine = s.nmiLine := rfl
@[simp] theorem State.setCycles_irqLine (s : State) (v : Nat) : (s.setCycles v).irqLine = s.irqLine := rfl
@[simp] theorem State.setCycles_ram (s : State) (v : Nat) : (s.setCycles v).ram = s.ram := rfl
@[simp] theorem State.setCycles_prgRom (s : State) (v : Nat) : (s.setCycles v).prgRom = s.prgRom := rfl
@[simp] theorem State.setCycles_prgRam (s : State) (v : Nat) : (s.setCycles v).prgRam = s.prgRam := rfl
@[simp] theorem State.setCycles_chrRom (s : State) (v : Nat) : (s.setCycles v).chrRom = s.chrRom := rfl
@[simp] theorem State.setCycles_chrRam (s : State) (v : Nat) : (s.setCycles v).chrRam = s.chrRam := rfl
@[simp] theorem State.setCycles_ciram (s : State) (v : Nat) : (s.setCycles v).ciram = s.ciram := rfl
@[simp] theorem State.setCycles_palette (s : State) (v : Nat) : (s.setCycles v).palette = s.palette := rfl
@[simp] theorem State.setCycles_oam (s : State) (v : Nat) : (s.setCycles v).oam = s.oam := rfl
@[simp] theorem State.setCycles_frame (s : State) (v : Nat) : (s.setCycles v).frame = s.frame := rfl
@[simp] theorem State.setCycles_ppu (s : State) (v : Nat) : (s.setCycles v).ppu = s.ppu := rfl
@[simp] theorem State.setCycles_cart (s : State) (v : Nat) : (s.setCycles v).cart = s.cart := rfl
@[simp] theorem State.setCycles_map (s : State) (v : Nat) : (s.setCycles v).map = s.map := rfl
@[simp] theorem State.setCycles_pad (s : State) (v : Nat) : (s.setCycles v).pad = s.pad := rfl
@[simp] theorem State.setCycles_draws (s : State) (v : Nat) : (s.setCycles v).draws = s.draws := rfl
@[simp] theorem State.setCycles_host (s : State) (v : Nat) : (s.setCycles v).host = s.host := rfl
@[simp] theorem State.setNmiLine_config (s : State) (v : Bool) : (s.setNmiLine v).config = s.config := rfl
@[simp] theorem State.setNmiLine_a (s : State) (v : Bool) : (s.setNmiLine v).a = s.a := rfl
@[simp] theorem State.setNmiLine_x (s : State) (v : Bool) : (s.setNmiLine v).x = s.x := rfl
@[simp] theorem State.setNmiLine_y (s : State) (v : Bool) : (s.setNmiLine v).y = s.y := rfl
@[simp] theorem State.setNmiLine_sp (s : State) (v : Bool) : (s.setNmiLine v).sp = s.sp := rfl
@[simp] theorem State.setNmiLine_p (s : State) (v : Bool) : (s.setNmiLine v).p = s.p := rfl
@[simp] theorem State.setNmiLine_pc (s : State) (v : Bool) : (s.setNmiLine v).pc = s.pc := rfl
@[simp] theorem State.setNmiLine_cache (s : State) (v : Bool) : (s.setNmiLine v).cache = s.cache := rfl
@[simp] theorem State.setNmiLine_cur (s : State) (v : Bool) : (s.setNmiLine v).cur = s.cur := rfl
@[simp] theorem State.setNmiLine_cycles (s : State) (v : Bool) : (s.setNmiLine v).cycles = s.cycles := rfl
@[simp] theorem State.setNmiLine_nmiLine (s : State) (v : Bool) : (s.setNmiLine v).nmiLine = v := rfl
@[simp] theorem State.setNmiLine_irqLine (s : State) (v : Bool) : (s.setNmiLine v).irqLine = s.irqLine := rfl
@[simp] theorem State.setNmiLine_ram (s : State) (v : Bool) : (s.setNmiLine v).ram = s.ram := rfl
@[simp] theorem State.setNmiLine_prgRom (s : State) (v : Bool) : (s.setNmiLine v).prgRom = s.prgRom := rfl
@[simp] theorem State.setNmiLine_prgRam (s : State) (v : Bool) : (s.setNmiLine v).prgRam = s.prgRam := rfl
@[simp] theorem State.setNmiLine_chrRom (s : State) (v : Bool) : (s.setNmiLine v).chrRom = s.chrRom := rfl
@[simp] theorem State.setNmiLine_chrRam (s : State) (v : Bool) : (s.setNmiLine v).chrRam = s.chrRam := rfl
@[simp] theorem State.setNmiLine_ciram (s : State) (v : Bool) : (s.setNmiLine v).ciram = s.ciram := rfl
@[simp] theorem State.setNmiLine_palette (s : State) (v : Bool) : (s.setNmiLine v).palette = s.palette := rfl
@[simp] theorem State.setNmiLine_oam (s : State) (v : Bool) : (s.setNmiLine v).oam = s.oam := rfl
@[simp] theorem State.setNmiLine_frame (s : State) (v : Bool) : (s.setNmiLine v).frame = s.frame := rfl
@[simp] theorem State.setNmiLine_ppu (s : State) (v : Bool) : (s.setNmiLine v).ppu = s.ppu := rfl
@[simp] theorem State.setNmiLine_cart (s : State) (v : Bool) : (s.setNmiLine v).cart = s.cart := rfl
@[simp] theorem State.setNmiLine_map (s : State) (v : Bool) : (s.setNmiLine v).map = s.map := rfl
@[simp] theorem State.setNmiLine_pad (s : State) (v : Bool) : (s.setNmiLine v).pad = s.pad := rfl
@[simp] theorem State.setNmiLine_draws (s : State) (v : Bool) : (s.setNmiLine v).draws = s.draws := rfl
@[simp] theorem State.setNmiLine_host (s : State) (v : Bool) : (s.setNmiLine v).host = s.host := rfl
@[simp] theorem State.setIrqLine_config (s : State) (v : Bool) : (s.setIrqLine v).config = s.config := rfl
@[simp] theorem State.setIrqLine_a (s : State) (v : Bool) : (s.setIrqLine v).a = s.a := rfl
@[simp] theorem State.setIrqLine_x (s : State) (v : Bool) : (s.setIrqLine v).x = s.x := rfl
@[simp] theorem State.setIrqLine_y (s : State) (v : Bool) : (s.setIrqLine v).y = s.y := rfl
@[simp] theorem State.setIrqLine_sp (s : State) (v : Bool) : (s.setIrqLine v).sp = s.sp := rfl
@[simp] theorem State.setIrqLine_p (s : State) (v : Bool) : (s.setIrqLine v).p = s.p := rfl
@[simp] theorem State.setIrqLine_pc (s : State) (v : Bool) : (s.setIrqLine v).pc = s.pc := rfl
@[simp] theorem State.setIrqLine_cache (s : State) (v : Bool) : (s.setIrqLine v).cache = s.cache := rfl
@[simp] theorem State.setIrqLine_cur (s : State) (v : Bool) : (s.setIrqLine v).cur = s.cur := rfl
@[simp] theorem State.setIrqLine_cycles (s : State) (v : Bool) : (s.setIrqLine v).cycles = s.cycles := rfl
@[simp] theorem State.setIrqLine_nmiLine (s : State) (v : Bool) : (s.setIrqLine v).nmiLine = s.nmiLine := rfl
@[simp] theorem State.setIrqLine_irqLine (s : State) (v : Bool) : (s.setIrqLine v).irqLine = v := rfl
@[simp] theorem State.setIrqLine_ram (s : State) (v : Bool) : (s.setIrqLine v).ram = s.ram := rfl
@[simp] theorem State.setIrqLine_prgRom (s : State) (v : Bool) : (s.setIrqLine v).prgRom = s.prgRom := rfl
@[simp] theorem State.setIrqLine_prgRam (s : State) (v : Bool) : (s.setIrqLine v).prgRam = s.prgRam := rfl
@[simp] theorem State.setIrqLine_chrRom (s : State) (v : Bool) : (s.setIrqLine v).chrRom = s.chrRom := rfl
@[simp] theorem State.setIrqLine_chrRam (s : State) (v : Bool) : (s.setIrqLine v).chrRam = s.chrRam := rfl
@[simp] theorem State.setIrqLine_ciram (s : State) (v : Bool) : (s.setIrqLine v).ciram = s.ciram := rfl
@[simp] theorem State.setIrqLine_palette (s : State) (v : Bool) : (s.setIrqLine v).palette = s.palette := rfl
@[simp] theorem State.setIrqLine_oam (s : State) (v : Bool) : (s.setIrqLine v).oam = s.oam := rfl
@[simp] theorem State.setIrqLine_frame (s : State) (v : Bool) : (s.setIrqLine v).frame = s.frame := rfl
@[simp] theorem State.setIrqLine_ppu (s : State) (v : Bool) : (s.setIrqLine v).ppu = s.ppu := rfl
@[simp] theorem State.setIrqLine_cart (s : State) (v : Bool) : (s.setIrqLine v).cart = s.cart := rfl
@[simp] theorem State.setIrqLine_map (s : State) (v : Bool) : (s.setIrqLine v).map = s.map := rfl
@[simp] theorem State.setIrqLine_pad (s : State) (v : Bool) : (s.setIrqLine v).pad = s.pad := rfl
@[simp] theorem State.setIrqLine_draws (s : State) (v : Bool) : (s.setIrqLine v).draws = s.draws := rfl
@[simp] theorem State.setIrqLine_host (s : State) (v : Bool) : (s.setIrqLine v).host = s.host := rfl
@[simp] theorem State.setRam_config (s : State) (v : Memory) : (s.setRam v).config = s.config := rfl
@[simp] theorem State.setRam_a (s : State) (v : Memory) : (s.setRam v).a = s.a := rfl
@[simp] theorem State.setRam_x (s : State) (v : Memory) : (s.setRam v).x = s.x := rfl
@[simp] theorem State.setRam_y (s : State) (v : Memory) : (s.setRam v).y = s.y := rfl
@[simp] theorem State.setRam_sp (s : State) (v : Memory) : (s.setRam v).sp = s.sp := rfl
@[simp] theorem State.setRam_p (s : State) (v : Memory) : (s.setRam v).p = s.p := rfl
@[simp] theorem State.setRam_pc (s : State) (v : Memory) : (s.setRam v).pc = s.pc := rfl
@[simp] theorem State.setRam_cache (s : State) (v : Memory) : (s.setRam v).cache = s.cache := rfl
@[simp] theorem State.setRam_cur (s : State) (v : Memory) : (s.setRam v).cur = s.cur := rfl
@[simp] theorem State.setRam_cycles (s : State) (v : Memory) : (s.setRam v).cycles = s.cycles := rfl
@[simp] theorem State.setRam_nmiLine (s : State) (v : Memory) : (s.setRam v).nmiLine = s.nmiLine := rfl
@[simp] theorem State.setRam_irqLine (s : State) (v : Memory) : (s.setRam v).irqLine = s.irqLine := rfl
@[simp] theorem State.setRam_ram (s : State) (v : Memory) : (s.setRam v).ram = v := rfl
@[simp] theorem State.setRam_prgRom (s : State) (v : Memory) : (s.setRam v).prgRom = s.prgRom := rfl
@[simp] theorem State.setRam_prgRam (s : State) (v : Memory) : (s.setRam v).prgRam = s.prgRam := rfl
@[simp] theorem State.setRam_chrRom (s : State) (v : Memory) : (s.setRam v).chrRom = s.chrRom := rfl
@[simp] theorem State.setRam_chrRam (s : State) (v : Memory) : (s.setRam v).chrRam = s.chrRam := rfl
@[simp] theorem State.setRam_ciram (s : State) (v : Memory) : (s.setRam v).ciram = s.ciram := rfl
@[simp] theorem State.setRam_palette (s : State) (v : Memory) : (s.setRam v).palette = s.palette := rfl
@[simp] theorem State.setRam_oam (s : State) (v : Memory) : (s.setRam v).oam = s.oam := rfl
@[simp] theorem State.setRam_frame (s : State) (v : Memory) : (s.setRam v).frame = s.frame := rfl
@[simp] theorem State.setRam_ppu (s : State) (v : Memory) : (s.setRam v).ppu = s.ppu := rfl
@[simp] theorem State.setRam_cart (s : State) (v : Memory) : (s.setRam v).cart = s.cart := rfl
@[simp] theorem State.setRam_map (s : State) (v : Memory) : (s.setRam v).map = s.map := rfl
@[simp] theorem State.setRam_pad (s : State) (v : Memory) : (s.setRam v).pad = s.pad := rfl
@[simp] theorem State.setRam_draws (s : State) (v : Memory) : (s.setRam v).draws = s.draws := rfl
@[simp] theorem State.setRam_host (s : State) (v : Memory) : (s.setRam v).host = s.host := rfl
@[simp] theorem State.setPrgRom_config (s : State) (v : Memory) : (s.setPrgRom v).config = s.config := rfl
@[simp] theorem State.setPrgRom_a (s : State) (v : Memory) : (s.setPrgRom v).a = s.a := rfl
@[simp] theorem State.setPrgRom_x (s : State) (v : Memory) : (s.setPrgRom v).x = s.x := rfl
@[simp] theorem State.setPrgRom_y (s : State) (v : Memory) : (s.setPrgRom v).y = s.y := rfl
@[simp] theorem State.setPrgRom_sp (s : State) (v : Memory) : (s.setPrgRom v).sp = s.sp := rfl
@[simp] theorem State.setPrgRom_p (s : State) (v : Memory) : (s.setPrgRom v).p = s.p := rfl
@[simp] theorem State.setPrgRom_pc (s : State) (v : Memory) : (s.setPrgRom v).pc = s.pc := rfl
@[simp] theorem State.setPrgRom_cache (s : State) (v : Memory) : (s.setPrgRom v).cache = s.cache := rfl
@[simp] theorem State.setPrgRom_cur (s : State) (v : Memory) : (s.setPrgRom v).cur = s.cur := rfl
@[simp] theorem State.setPrgRom_cycles (s : State) (v : Memory) : (s.setPrgRom v).cycles = s.cycles := rfl
@[simp] theorem State.setPrgRom_nmiLine (s : State) (v : Memory) : (s.setPrgRom v).nmiLine = s.nmiLine := rfl
@[simp] theorem State.setPrgRom_irqLine (s : State) (v : Memory) : (s.setPrgRom v).irqLine = s.irqLine := rfl
@[simp] theorem State.setPrgRom_ram (s : State) (v : Memory) : (s.setPrgRom v).ram = s.ram := rfl
@[simp] theorem State.setPrgRom_prgRom (s : State) (v : Memory) : (s.setPrgRom v).prgRom = v := rfl
@[simp] theorem State.setPrgRom_prgRam (s : State) (v : Memory) : (s.setPrgRom v).prgRam = s.prgRam := rfl
@[simp] theorem State.setPrgRom_chrRom (s : State) (v : Memory) : (s.setPrgRom v).chrRom = s.chrRom := rfl
@[simp] theorem State.setPrgRom_chrRam (s : State) (v : Memory) : (s.setPrgRom v).chrRam = s.chrRam := rfl
@[simp] theorem State.setPrgRom_ciram (s : State) (v : Memory) : (s.setPrgRom v).ciram = s.ciram := rfl
@[simp] theorem State.setPrgRom_palette (s : State) (v : Memory) : (s.setPrgRom v).palette = s.palette := rfl
@[simp] theorem State.setPrgRom_oam (s : State) (v : Memory) : (s.setPrgRom v).oam = s.oam := rfl
@[simp] theorem State.setPrgRom_frame (s : State) (v : Memory) : (s.setPrgRom v).frame = s.frame := rfl
@[simp] theorem State.setPrgRom_ppu (s : State) (v : Memory) : (s.setPrgRom v).ppu = s.ppu := rfl
@[simp] theorem State.setPrgRom_cart (s : State) (v : Memory) : (s.setPrgRom v).cart = s.cart := rfl
@[simp] theorem State.setPrgRom_map (s : State) (v : Memory) : (s.setPrgRom v).map = s.map := rfl
@[simp] theorem State.setPrgRom_pad (s : State) (v : Memory) : (s.setPrgRom v).pad = s.pad := rfl
@[simp] theorem State.setPrgRom_draws (s : State) (v : Memory) : (s.setPrgRom v).draws = s.draws := rfl
@[simp] theorem State.setPrgRom_host (s : State) (v : Memory) : (s.setPrgRom v).host = s.host := rfl
@[simp] theorem State.setPrgRam_config (s : State) (v : Memory) : (s.setPrgRam v).config = s.config := rfl
@[simp] theorem State.setPrgRam_a (s : State) (v : Memory) : (s.setPrgRam v).a = s.a := rfl
@[simp] theorem State.setPrgRam_x (s : State) (v : Memory) : (s.setPrgRam v).x = s.x := rfl
@[simp] theorem State.setPrgRam_y (s : State) (v : Memory) : (s.setPrgRam v).y = s.y := rfl
@[simp] theorem State.setPrgRam_sp (s : State) (v : Memory) : (s.setPrgRam v).sp = s.sp := rfl
@[simp] theorem State.setPrgRam_p (s : State) (v : Memory) : (s.setPrgRam v).p = s.p := rfl
@[simp] theorem State.setPrgRam_pc (s : State) (v : Memory) : (s.setPrgRam v).pc = s.pc := rfl
@[simp] theorem State.setPrgRam_cache (s : State) (v : Memory) : (s.setPrgRam v).cache = s.cache := rfl
@[simp] theorem State.setPrgRam_cur (s : State) (v : Memory) : (s.setPrgRam v).cur = s.cur := rfl
@[simp] theorem State.setPrgRam_cycles (s : State) (v : Memory) : (s.setPrgRam v).cycles = s.cycles := rfl
@[simp] theorem State.setPrgRam_nmiLine (s : State) (v : Memory) : (s.setPrgRam v).nmiLine = s.nmiLine := rfl
@[simp] theorem State.setPrgRam_irqLine (s : State) (v : Memory) : (s.setPrgRam v).irqLine = s.irqLine := rfl
@[simp] theorem State.setPrgRam_ram (s : State) (v : Memory) : (s.setPrgRam v).ram = s.ram := rfl
@[simp] theorem State.setPrgRam_prgRom (s : State) (v : Memory) : (s.setPrgRam v).prgRom = s.prgRom := rfl
@[simp] theorem State.setPrgRam_prgRam (s : State) (v : Memory) : (s.setPrgRam v).prgRam = v := rfl
@[simp] theorem State.setPrgRam_chrRom (s : State) (v : Memory) : (s.setPrgRam v).chrRom = s.chrRom := rfl
@[simp] theorem State.setPrgRam_chrRam (s : State) (v : Memory) : (s.setPrgRam v).chrRam = s.chrRam := rfl
@[simp] theorem State.setPrgRam_ciram (s : State) (v : Memory) : (s.setPrgRam v).ciram = s.ciram := rfl
@[simp] theorem State.setPrgRam_palette (s : State) (v : Memory) : (s.setPrgRam v).palette = s.palette := rfl
@[simp] theorem State.setPrgRam_oam (s : State) (v : Memory) : (s.setPrgRam v).oam = s.oam := rfl
@[simp] theorem State.setPrgRam_frame (s : State) (v : Memory) : (s.setPrgRam v).frame = s.frame := rfl
@[simp] theorem State.setPrgRam_ppu (s : State) (v : Memory) : (s.setPrgRam v).ppu = s.ppu := rfl
@[simp] theorem State.setPrgRam_cart (s : State) (v : Memory) : (s.setPrgRam v).cart = s.cart := rfl
@[simp] theorem State.setPrgRam_map (s : State) (v : Memory) : (s.setPrgRam v).map = s.map := rfl
@[simp] theorem State.setPrgRam_pad (s : State) (v : Memory) : (s.setPrgRam v).pad = s.pad := rfl
@[simp] theorem State.setPrgRam_draws (s : State) (v : Memory) : (s.setPrgRam v).draws = s.draws := rfl
@[simp] theorem State.setPrgRam_host (s : State) (v : Memory) : (s.setPrgRam v).host = s.host := rfl
@[simp] theorem State.setChrRam_config (s : State) (v : Memory) : (s.setChrRam v).config = s.config := rfl
@[simp] theorem State.setChrRam_a (s : State) (v : Memory) : (s.setChrRam v).a = s.a := rfl
@[simp] theorem State.setChrRam_x (s : State) (v : Memory) : (s.setChrRam v).x = s.x := rfl
@[simp] theorem State.setChrRam_y (s : State) (v : Memory) : (s.setChrRam v).y = s.y := rfl
@[simp] theorem State.setChrRam_sp (s : State) (v : Memory) : (s.setChrRam v).sp = s.sp := rfl
@[simp] theorem State.setChrRam_p (s : State) (v : Memory) : (s.setChrRam v).p = s.p := rfl
@[simp] theorem State.setChrRam_pc (s : State) (v : Memory) : (s.setChrRam v).pc = s.pc := rfl
@[simp] theorem State.setChrRam_cache (s : State) (v : Memory) : (s.setChrRam v).cache = s.cache := rfl
@[simp] theorem State.setChrRam_cur (s : State) (v : Memory) : (s.setChrRam v).cur = s.cur := rfl
@[simp] theorem State.setChrRam_cycles (s : State) (v : Memory) : (s.setChrRam v).cycles = s.cycles := rfl
@[simp] theorem State.setChrRam_nmiLine (s : State) (v : Memory) : (s.setChrRam v).nmiLine = s.nmiLine := rfl
@[simp] theorem State.setChrRam_irqLine (s : State) (v : Memory) : (s.setChrRam v).irqLine = s.irqLine := rfl
@[simp] theorem State.setChrRam_ram (s : State) (v : Memory) : (s.setChrRam v).ram = s.ram := rfl
@[simp] theorem State.setChrRam_prgRom (s : State) (v : Memory) : (s.setChrRam v).prgRom = s.prgRom := rfl
@[simp] theorem State.setChrRam_prgRam (s : State) (v : Memory) : (s.setChrRam v).prgRam = s.prgRam := rfl
@[simp] theorem State.setChrRam_chrRom (s : State) (v : Memory) : (s.setChrRam v).chrRom = s.chrRom := rfl
@[simp] theorem State.setChrRam_chrRam (s : State) (v : Memory) : (s.setChrRam v).chrRam = v := rfl
@[simp] theorem State.setChrRam_ciram (s : State) (v : Memory) : (s.setChrRam v).ciram = s.ciram := rfl
@[simp] theorem State.setChrRam_palette (s : State) (v : Memory) : (s.setChrRam v).palette = s.palette := rfl
@[simp] theorem State.setChrRam_oam (s : State) (v : Memory) : (s.setChrRam v).oam = s.oam := rfl
@[simp] theorem State.setChrRam_frame (s : State) (v : Memory) : (s.setChrRam v).frame = s.frame := rfl
@[simp] theorem State.setChrRam_ppu (s : State) (v : Memory) : (s.setChrRam v).ppu = s.ppu := rfl
@[simp] theorem State.setChrRam_cart (s : State) (v : Memory) : (s.setChrRam v).cart = s.cart := rfl
@[simp] theorem State.setChrRam_map (s : State) (v : Memory) : (s.setChrRam v).map = s.map := rfl
@[simp] theorem State.setChrRam_pad (s : State) (v : Memory) : (s.setChrRam v).pad = s.pad := rfl
@[simp] theorem State.setChrRam_draws (s : State) (v : Memory) : (s.setChrRam v).draws = s.draws := rfl
@[simp] theorem State.setChrRam_host (s : State) (v : Memory) : (s.setChrRam v).host = s.host := rfl
@[simp] theorem State.setCiram_config (s : State) (v : Memory) : (s.setCiram v).config = s.config := rfl
@[simp] theorem State.setCiram_a (s : State) (v : Memory) : (s.setCiram v).a = s.a := rfl
@[simp] theorem State.setCiram_x (s : State) (v : Memory) : (s.setCiram v).x = s.x := rfl
@[simp] theorem State.setCiram_y (s : State) (v : Memory) : (s.setCiram v).y = s.y := rfl
@[simp] theorem State.setCiram_sp (s : State) (v : Memory) : (s.setCiram v).sp = s.sp := rfl
@[simp] theorem State.setCiram_p (s : State) (v : Memory) : (s.setCiram v).p = s.p := rfl
@[simp] theorem State.setCiram_pc (s : State) (v : Memory) : (s.setCiram v).pc = s.pc := rfl
@[simp] theorem State.setCiram_cache (s : State) (v : Memory) : (s.setCiram v).cache = s.cache := rfl
@[simp] theorem State.setCiram_cur (s : State) (v : Memory) : (s.setCiram v).cur = s.cur := rfl
@[simp] theorem State.setCiram_cycles (s : State) (v : Memory) : (s.setCiram v).cycles = s.cycles := rfl
@[simp] theorem State.setCiram_nmiLine (s : State) (v : Memory) : (s.setCiram v).nmiLine = s.nmiLine := rfl
@[simp] theorem State.setCiram_irqLine (s : State) (v : Memory) : (s.setCiram v).irqLine = s.irqLine := rfl
@[simp] theorem State.setCiram_ram (s : State) (v : Memory) : (s.setCiram v).ram = s.ram := rfl
@[simp] theorem State.setCiram_prgRom (s : State) (v : Memory) : (s.setCiram v).prgRom = s.prgRom := rfl
@[simp] theorem State.setCiram_prgRam (s : State) (v : Memory) : (s.setCiram v).prgRam = s.prgRam := rfl
@[simp] theorem State.setCiram_chrRom (s : State) (v : Memory) : (s.setCiram v).chrRom = s.chrRom := rfl
@[simp] theorem State.setCiram_chrRam (s : State) (v : Memory) : (s.setCiram v).chrRam = s.chrRam := rfl
@[simp] theorem State.setCiram_ciram (s : State) (v : Memory) : (s.setCiram v).ciram = v := rfl
@[simp] theorem State.setCiram_palette (s : State) (v : Memory) : (s.setCiram v).palette = s.palette := rfl
@[simp] theorem State.setCiram_oam (s : State) (v : Memory) : (s.setCiram v).oam = s.oam := rfl
@[simp] theorem State.setCiram_frame (s : State) (v : Memory) : (s.setCiram v).frame = s.frame := rfl
@[simp] theorem State.setCiram_ppu (s : State) (v : Memory) : (s.setCiram v).ppu = s.ppu := rfl
@[simp] theorem State.setCiram_cart (s : State) (v : Memory) : (s.setCiram v).cart = s.cart := rfl
@[simp] theorem State.setCiram_map (s : State) (v : Memory) : (s.setCiram v).map = s.map := rfl
@[simp] theorem State.setCiram_pad (s : State) (v : Memory) : (s.setCiram v).pad = s.pad := rfl
@[simp] theorem State.setCiram_draws (s : State) (v : Memory) : (s.setCiram v).draws = s.draws := rfl
@[simp] theorem State.setCiram_host (s : State) (v : Memory) : (s.setCiram v).host = s.host := rfl
@[simp] theorem State.setPalette_config (s : State) (v : Memory) : (s.setPalette v).config = s.config := rfl
@[simp] theorem State.setPalette_a (s : State) (v : Memory) : (s.setPalette v).a = s.a := rfl
@[simp] theorem State.setPalette_x (s : State) (v : Memory) : (s.setPalette v).x = s.x := rfl
@[simp] theorem State.setPalette_y (s : State) (v : Memory) : (s.setPalette v).y = s.y := rfl
@[simp] theorem State.setPalette_sp (s : State) (v : Memory) : (s.setPalette v).sp = s.sp := rfl
@[simp] theorem State.setPalette_p (s : State) (v : Memory) : (s.setPalette v).p = s.p := rfl
@[simp] theorem State.setPalette_pc (s : State) (v : Memory) : (s.setPalette v).pc = s.pc := rfl
@[simp] theorem State.setPalette_cache (s : State) (v : Memory) : (s.setPalette v).cache = s.cache := rfl
@[simp] theorem State.setPalette_cur (s : State) (v : Memory) : (s.setPalette v).cur = s.cur := rfl
@[simp] theorem State.setPalette_cycles (s : State) (v : Memory) : (s.setPalette v).cycles = s.cycles := rfl
@[simp] theorem State.setPalette_nmiLine (s : State) (v : Memory) : (s.setPalette v).nmiLine = s.nmiLine := rfl
@[simp] theorem State.setPalette_irqLine (s : State) (v : Memory) : (s.setPalette v).irqLine = s.irqLine := rfl
@[simp] theorem State.setPalette_ram (s : State) (v : Memory) : (s.setPalette v).ram = s.ram := rfl
@[simp] theorem State.setPalette_prgRom (s : State) (v : Memory) : (s.setPalette v).prgRom = s.prgRom := rfl
@[simp] theorem State.setPalette_prgRam (s : State) (v : Memory) : (s.setPalette v).prgRam = s.prgRam := rfl
@[simp] theorem State.setPalette_chrRom (s : State) (v : Memory) : (s.setPalette v).chrRom = s.chrRom := rfl
@[simp] theorem State.setPalette_chrRam (s : State) (v : Memory) : (s.setPalette v).chrRam = s.chrRam := rfl
@[simp] theorem State.setPalette_ciram (s : State) (v : Memory) : (s.setPalette v).ciram = s.ciram := rfl
@[simp] theorem State.setPalette_palette (s : State) (v : Memory) : (s.setPalette v).palette = v := rfl
@[simp] theorem State.setPalette_oam (s : State) (v : Memory) : (s.setPalette v).oam = s.oam := rfl
@[simp] theorem State.setPalette_frame (s : State) (v : Memory) : (s.setPalette v).frame = s.frame := rfl
@[simp] theorem State.setPalette_ppu (s : State) (v : Memory) : (s.setPalette v).ppu = s.ppu := rfl
@[simp] theorem State.setPalette_cart (s : State) (v : Memory) : (s.setPalette v).cart = s.cart := rfl
@[simp] theorem State.setPalette_map (s : State) (v : Memory) : (s.setPalette v).map = s.map := rfl
@[simp] theorem State.setPalette_pad (s : State) (v : Memory) : (s.setPalette v).pad = s.pad := rfl
@[simp] theorem State.setPalette_draws (s : State) (v : Memory) : (s.setPalette v).draws = s.draws := rfl
@[simp] theorem State.setPalette_host (s : State) (v : Memory) : (s.setPalette v).host = s.host := rfl
@[simp] theorem State.setOam_config (s : State) (v : Memory) : (s.setOam v).config = s.config := rfl
@[simp] theorem State.setOam_a (s : State) (v : Memory) : (s.setOam v).a = s.a := rfl
@[simp] theorem State.setOam_x (s : State) (v : Memory) : (s.setOam v).x = s.x := rfl
@[simp] theorem State.setOam_y (s : State) (v : Memory) : (s.setOam v).y = s.y := rfl
@[simp] theorem State.setOam_sp (s : State) (v : Memory) : (s.setOam v).sp = s.sp := rfl
@[simp] theorem State.setOam_p (s : State) (v : Memory) : (s.setOam v).p = s.p := rfl
@[simp] theorem State.setOam_pc (s : State) (v : Memory) : (s.setOam v).pc = s.pc := rfl
@[simp] theorem State.setOam_cache (s : State) (v : Memory) : (s.setOam v).cache = s.cache := rfl
@[simp] theorem State.setOam_cur (s : State) (v : Memory) : (s.setOam v).cur = s.cur := rfl
@[simp] theorem State.setOam_cycles (s : State) (v : Memory) : (s.setOam v).cycles = s.cycles := rfl
@[simp] theorem State.setOam_nmiLine (s : State) (v : Memory) : (s.setOam v).nmiLine = s.nmiLine := rfl
@[simp] theorem State.setOam_irqLine (s : State) (v : Memory) : (s.setOam v).irqLine = s.irqLine := rfl
@[simp] theorem State.setOam_ram (s : State) (v : Memory) : (s.setOam v).ram = s.ram := rfl
@[simp] theorem State.setOam_prgRom (s : State) (v : Memory) : (s.setOam v).prgRom = s.prgRom := rfl
@[simp] theorem State.setOam_prgRam (s : State) (v : Memory) : (s.setOam v).prgRam = s.prgRam := rfl
@[simp] theorem State.setOam_chrRom (s : State) (v : Memory) : (s.setOam v).chrRom = s.chrRom := rfl
@[simp] theorem State.setOam_chrRam (s : State) (v : Memory) : (s.setOam v).chrRam = s.chrRam := rfl
@[simp] theorem State.setOam_ciram (s : State) (v : Memory) : (s.setOam v).ciram = s.ciram := rfl
@[simp] theorem State.setOam_palette (s : State) (v : Memory) : (s.setOam v).palette = s.palette := rfl
@[simp] theorem State.setOam_oam (s : State) (v : Memory) : (s.setOam v).oam = v := rfl
@[simp] theorem State.setOam_frame (s : State) (v : Memory) : (s.setOam v).frame = s.frame := rfl
@[simp] theorem State.setOam_ppu (s : State) (v : Memory) : (s.setOam v).ppu = s.ppu := rfl
@[simp] theorem State.setOam_cart (s : State) (v : Memory) : (s.setOam v).cart = s.cart := rfl
@[simp] theorem State.setOam_map (s : State) (v : Memory) : (s.setOam v).map = s.map := rfl
@[simp] theorem State.setOam_pad (s : State) (v : Memory) : (s.setOam v).pad = s.pad := rfl
@[simp] theorem State.setOam_draws (s : State) (v : Memory) : (s.setOam v).draws = s.draws := rfl
@[simp] theorem State.setOam_host (s : State) (v : Memory) : (s.setOam v).host = s.host := rfl
@[simp] theorem State.setFrame_config (s : State) (v : Memory) : (s.setFrame v).config = s.config := rfl
@[simp] theorem State.setFrame_a (s : State) (v : Memory) : (s.setFrame v).a = s.a := rfl
@[simp] theorem State.setFrame_x (s : State) (v : Memory) : (s.setFrame v).x = s.x := rfl
@[simp] theorem State.setFrame_y (s : State) (v : Memory) : (s.setFrame v).y = s.y := rfl
@[simp] theorem State.setFrame_sp (s : State) (v : Memory) : (s.setFrame v).sp = s.sp := rfl
@[simp] theorem State.setFrame_p (s : State) (v : Memory) : (s.setFrame v).p = s.p := rfl
@[simp] theorem State.setFrame_pc (s : State) (v : Memory) : (s.setFrame v).pc = s.pc := rfl
@[simp] theorem State.setFrame_cache (s : State) (v : Memory) : (s.setFrame v).cache = s.cache := rfl
@[simp] theorem State.setFrame_cur (s : State) (v : Memory) : (s.setFrame v).cur = s.cur := rfl
@[simp] theorem State.setFrame_cycles (s : State) (v : Memory) : (s.setFrame v).cycles = s.cycles := rfl
@[simp] theorem State.setFrame_nmiLine (s : State) (v : Memory) : (s.setFrame v).nmiLine = s.nmiLine := rfl
@[simp] theorem State.setFrame_irqLine (s : State) (v : Memory) : (s.setFrame v).irqLine = s.irqLine := rfl
@[simp] theorem State.setFrame_ram (s : State) (v : Memory) : (s.setFrame v).ram = s.ram := rfl
@[simp] theorem State.setFrame_prgRom (s : State) (v : Memory) : (s.setFrame v).prgRom = s.prgRom := rfl
@[simp] theorem State.setFrame_prgRam (s : State) (v : Memory) : (s.setFrame v).prgRam = s.prgRam := rfl
@[simp] theorem State.setFrame_chrRom (s : State) (v : Memory) : (s.setFrame v).chrRom = s.chrRom := rfl
@[simp] theorem State.setFrame_chrRam (s : State) (v : Memory) : (s.setFrame v).chrRam = s.chrRam := rfl
@[simp] theorem State.setFrame_ciram (s : State) (v : Memory) : (s.setFrame v).ciram = s.ciram := rfl
@[simp] theorem State.setFrame_palette (s : State) (v : Memory) : (s.setFrame v).palette = s.palette := rfl
@[simp] theorem State.setFrame_oam (s : State) (v : Memory) : (s.setFrame v).oam = s.oam := rfl
@[simp] theorem State.setFrame_frame (s : State) (v : Memory) : (s.setFrame v).frame = v := rfl
@[simp] theorem State.setFrame_ppu (s : State) (v : Memory) : (s.setFrame v).ppu = s.ppu := rfl
@[simp] theorem State.setFrame_cart (s : State) (v : Memory) : (s.setFrame v).cart = s.cart := rfl
@[simp] theorem State.setFrame_map (s : State) (v : Memory) : (s.setFrame v).map = s.map := rfl
@[simp] theorem State.setFrame_pad (s : State) (v : Memory) : (s.setFrame v).pad = s.pad := rfl
@[simp] theorem State.setFrame_draws (s : State) (v : Memory) : (s.setFrame v).draws = s.draws := rfl
@[simp] theorem State.setFrame_host (s : State) (v : Memory) : (s.setFrame v).host = s.host := rfl
@[simp] theorem State.setPpu_config (s : State) (v : Ppu) : (s.setPpu v).config = s.config := rfl
@[simp] theorem State.setPpu_a (s : State) (v : Ppu) : (s.setPpu v).a = s.a := rfl
@[simp] theorem State.setPpu_x (s : State) (v : Ppu) : (s.setPpu v).x = s.x := rfl
@[simp] theorem State.setPpu_y (s : State) (v : Ppu) : (s.setPpu v).y = s.y := rfl
@[simp] theorem State.setPpu_sp (s : State) (v : Ppu) : (s.setPpu v).sp = s.sp := rfl
@[simp] theorem State.setPpu_p (s : State) (v : Ppu) : (s.setPpu v).p = s.p := rfl
@[simp] theorem State.setPpu_pc (s : State) (v : Ppu) : (s.setPpu v).pc = s.pc := rfl
@[simp] theorem State.setPpu_cache (s : State) (v : Ppu) : (s.setPpu v).cache = s.cache := rfl
@[simp] theorem State.setPpu_cur (s : State) (v : Ppu) : (s.setPpu v).cur = s.cur := rfl
@[simp] theorem State.setPpu_cycles (s : State) (v : Ppu) : (s.setPpu v).cycles = s.cycles := rfl
@[simp] theorem State.setPpu_nmiLine (s : State) (v : Ppu) : (s.setPpu v).nmiLine = s.nmiLine := rfl
@[simp] theorem State.setPpu_irqLine (s : State) (v : Ppu) : (s.setPpu v).irqLine = s.irqLine := rfl
@[simp] theorem State.setPpu_ram (s : State) (v : Ppu) : (s.setPpu v).ram = s.ram := rfl
@[simp] theorem State.setPpu_prgRom (s : State) (v : Ppu) : (s.setPpu v).prgRom = s.prgRom := rfl
@[simp] theorem State.setPpu_prgRam (s : State) (v : Ppu) : (s.setPpu v).prgRam = s.prgRam := rfl
@[simp] theorem State.setPpu_chrRom (s : State) (v : Ppu) : (s.setPpu v).chrRom = s.chrRom := rfl
@[simp] theorem State.setPpu_chrRam (s : State) (v : Ppu) : (s.setPpu v).chrRam = s.chrRam := rfl
@[simp] theorem State.setPpu_ciram (s : State) (v : Ppu) : (s.setPpu v).ciram = s.ciram := rfl
@[simp] theorem State.setPpu_palette (s : State) (v : Ppu) : (s.setPpu v).palette = s.palette := rfl
@[simp] theorem State.setPpu_oam (s : State) (v : Ppu) : (s.setPpu v).oam = s.oam := rfl
@[simp] theorem State.setPpu_frame (s : State) (v : Ppu) : (s.setPpu v).frame = s.frame := rfl
@[simp] theorem State.setPpu_ppu (s : State) (v : Ppu) : (s.setPpu v).ppu = v := rfl
@[simp] theorem State.setPpu_cart (s : State) (v : Ppu) : (s.setPpu v).cart = s.cart := rfl
@[simp] theorem State.setPpu_map (s : State) (v : Ppu) : (s.setPpu v).map = s.map := rfl
@[simp] theorem State.setPpu_pad (s : State) (v : Ppu) : (s.setPpu v).pad = s.pad := rfl
@[simp] theorem State.setPpu_draws (s : State) (v : Ppu) : (s.setPpu v).draws = s.draws := rfl
@[simp] theorem State.setPpu_host (s : State) (v : Ppu) : (s.setPpu v).host = s.host := rfl
@[simp] theorem State.setMap_config (s : State) (v : MapperState) : (s.setMap v).config = s.config := rfl
@[simp] theorem State.setMap_a (s : State) (v : MapperState) : (s.setMap v).a = s.a := rfl
@[simp] theorem State.setMap_x (s : State) (v : MapperState) : (s.setMap v).x = s.x := rfl
@[simp] theorem State.setMap_y (s : State) (v : MapperState) : (s.setMap v).y = s.y := rfl
@[simp] theorem State.setMap_sp (s : State) (v : MapperState) : (s.setMap v).sp = s.sp := rfl
@[simp] theorem State.setMap_p (s : State) (v : MapperState) : (s.setMap v).p = s.p := rfl
@[simp] theorem State.setMap_pc (s : State) (v : MapperState) : (s.setMap v).pc = s.pc := rfl
@[simp] theorem State.setMap_cache (s : State) (v : MapperState) : (s.setMap v).cache = s.cache := rfl
@[simp] theorem State.setMap_cur (s : State) (v : MapperState) : (s.setMap v).cur = s.cur := rfl
@[simp] theorem State.setMap_cycles (s : State) (v : MapperState) : (s.setMap v).cycles = s.cycles := rfl
@[simp] theorem State.setMap_nmiLine (s : State) (v : MapperState) : (s.setMap v).nmiLine = s.nmiLine := rfl
@[simp] theorem State.setMap_irqLine (s : State) (v : MapperState) : (s.setMap v).irqLine = s.irqLine := rfl
@[simp] theorem State.setMap_ram (s : State) (v : MapperState) : (s.setMap v).ram = s.ram := rfl
@[simp] theorem State.setMap_prgRom (s : State) (v : MapperState) : (s.setMap v).prgRom = s.prgRom := rfl
@[simp] theorem State.setMap_prgRam (s : State) (v : MapperState) : (s.setMap v).prgRam = s.prgRam := rfl
@[simp] theorem State.setMap_chrRom (s : State) (v : MapperState) : (s.setMap v).chrRom = s.chrRom := rfl
@[simp] theorem State.setMap_chrRam (s : State) (v : MapperState) : (s.setMap v).chrRam = s.chrRam := rfl
@[simp] theorem State.setMap_ciram (s : State) (v : MapperState) : (s.setMap v).ciram = s.ciram := rfl
@[simp] theorem State.setMap_palette (s : State) (v : MapperState) : (s.setMap v).palette = s.palette := rfl
@[simp] theorem State.setMap_oam (s : State) (v : MapperState) : (s.setMap v).oam = s.oam := rfl
@[simp] theorem State.setMap_frame (s : State) (v : MapperState) : (s.setMap v).frame = s.frame := rfl
@[simp] theorem State.setMap_ppu (s : State) (v : MapperState) : (s.setMap v).ppu = s.ppu := rfl
@[simp] theorem State.setMap_cart (s : State) (v : MapperState) : (s.setMap v).cart = s.cart := rfl
@[simp] theorem State.setMap_map (s : State) (v : MapperState) : (s.setMap v).map = v := rfl
@[simp] theorem State.setMap_pad (s : State) (v : MapperState) : (s.setMap v).pad = s.pad := rfl
@[simp] theorem State.setMap_draws (s : State) (v : MapperState) : (s.setMap v).draws = s.draws := rfl
@[simp] theorem State.setMap_host (s : State) (v : MapperState) : (s.setMap v).host = s.host := rfl
@[simp] theorem State.setPad_config (s : State) (v : Pad) : (s.setPad v).config = s.config := rfl
@[simp] theorem State.setPad_a (s : State) (v : Pad) : (s.setPad v).a = s.a := rfl
@[simp] theorem State.setPad_x (s : State) (v : Pad) : (s.setPad v).x = s.x := rfl
@[simp] theorem State.setPad_y (s : State) (v : Pad) : (s.setPad v).y = s.y := rfl
@[simp] theorem State.setPad_sp (s : State) (v : Pad) : (s.setPad v).sp = s.sp := rfl
@[simp] theorem State.setPad_p (s : State) (v : Pad) : (s.setPad v).p = s.p := rfl
@[simp] theorem State.setPad_pc (s : State) (v : Pad) : (s.setPad v).pc = s.pc := rfl
@[simp] theorem State.setPad_cache (s : State) (v : Pad) : (s.setPad v).cache = s.cache := rfl
@[simp] theorem State.setPad_cur (s : State) (v : Pad) : (s.setPad v).cur = s.cur := rfl
@[simp] theorem State.setPad_cycles (s : State) (v : Pad) : (s.setPad v).cycles = s.cycles := rfl
@[simp] theorem State.setPad_nmiLine (s : State) (v : Pad) : (s.setPad v).nmiLine = s.nmiLine := rfl
@[simp] theorem State.setPad_irqLine (s : State) (v : Pad) : (s.setPad v).irqLine = s.irqLine := rfl
@[simp] theorem State.setPad_ram (s : State) (v : Pad) : (s.setPad v).ram = s.ram := rfl
@[simp] theorem State.setPad_prgRom (s : State) (v : Pad) : (s.setPad v).prgRom = s.prgRom := rfl
@[simp] theorem State.setPad_prgRam (s : State) (v : Pad) : (s.setPad v).prgRam = s.prgRam := rfl
@[simp] theorem State.setPad_chrRom (s : State) (v : Pad) : (s.setPad v).chrRom = s.chrRom := rfl
@[simp] theorem State.setPad_chrRam (s : State) (v : Pad) : (s.setPad v).chrRam = s.chrRam := rfl
@[simp] theorem State.setPad_ciram (s : State) (v : Pad) : (s.setPad v).ciram = s.ciram := rfl
@[simp] theorem State.setPad_palette (s : State) (v : Pad) : (s.setPad v).palette = s.palette := rfl
@[simp] theorem State.setPad_oam (s : State) (v : Pad) : (s.setPad v).oam = s.oam := rfl
@[simp] theorem State.setPad_frame (s : State) (v : Pad) : (s.setPad v).frame = s.frame := rfl
@[simp] theorem State.setPad_ppu (s : State) (v : Pad) : (s.setPad v).ppu = s.ppu := rfl
@[simp] theorem State.setPad_cart (s : State) (v : Pad) : (s.setPad v).cart = s.cart := rfl
@[simp] theorem State.setPad_map (s : State) (v : Pad) : (s.setPad v).map = s.map := rfl
@[simp] theorem State.setPad_pad (s : State) (v : Pad) : (s.setPad v).pad = v := rfl
@[simp] theorem State.setPad_draws (s : State) (v : Pad) : (s.setPad v).draws = s.draws := rfl
@[simp] theorem State.setPad_host (s : State) (v : Pad) : (s.setPad v).host = s.host := rfl
@[simp] theorem State.setDraws_config (s : State) (v : Nat) : (s.setDraws v).config = s.config := rfl
@[simp] theorem State.setDraws_a (s : State) (v : Nat) : (s.setDraws v).a = s.a := rfl
@[simp] theorem State.setDraws_x (s : State) (v : Nat) : (s.setDraws v).x = s.x := rfl
@[simp] theorem State.setDraws_y (s : State) (v : Nat) : (s.setDraws v).y = s.y := rfl
@[simp] theorem State.setDraws_sp (s : State) (v : Nat) : (s.setDraws v).sp = s.sp := rfl
@[simp] theorem State.setDraws_p (s : State) (v : Nat) : (s.setDraws v).p = s.p := rfl
@[simp] theorem State.setDraws_pc (s : State) (v : Nat) : (s.setDraws v).pc = s.pc := rfl
@[simp] theorem State.setDraws_cache (s : State) (v : Nat) : (s.setDraws v).cache = s.cache := rfl
@[simp] theorem State.setDraws_cur (s : State) (v : Nat) : (s.setDraws v).cur = s.cur := rfl
@[simp] theorem State.setDraws_cycles (s : State) (v : Nat) : (s.setDraws v).cycles = s.cycles := rfl
@[simp] theorem State.setDraws_nmiLine (s : State) (v : Nat) : (s.setDraws v).nmiLine = s.nmiLine := rfl
@[simp] theorem State.setDraws_irqLine (s : State) (v : Nat) : (s.setDraws v).irqLine = s.irqLine := rfl
@[simp] theorem State.setDraws_ram (s : State) (v : Nat) : (s.setDraws v).ram = s.ram := rfl
@[simp] theorem State.setDraws_prgRom (s : State) (v : Nat) : (s.setDraws v).prgRom = s.prgRom := rfl
@[simp] theorem State.setDraws_prgRam (s : State) (v : Nat) : (s.setDraws v).prgRam = s.prgRam := rfl
@[simp] theorem State.setDraws_chrRom (s : State) (v : Nat) : (s.setDraws v).chrRom = s.chrRom := rfl
@[simp] theorem State.setDraws_chrRam (s : State) (v : Nat) : (s.setDraws v).chrRam = s.chrRam := rfl
@[simp] theorem State.setDraws_ciram (s : State) (v : Nat) : (s.setDraws v).ciram = s.ciram := rfl
@[simp] theorem State.setDraws_palette (s : State) (v : Nat) : (s.setDraws v).palette = s.palette := rfl
@[simp] theorem State.setDraws_oam (s : State) (v : Nat) : (s.setDraws v).oam = s.oam := rfl
@[simp] theorem State.setDraws_frame (s : State) (v : Nat) : (s.setDraws v).frame = s.frame := rfl
@[simp] theorem State.setDraws_ppu (s : State) (v : Nat) : (s.setDraws v).ppu = s.ppu := rfl
@[simp] theorem State.setDraws_cart (s : State) (v : Nat) : (s.setDraws v).cart = s.cart := rfl
@[simp] theorem State.setDraws_map (s : State) (v : Nat) : (s.setDraws v).map = s.map := rfl
@[simp] theorem State.setDraws_pad (s : State) (v : Nat) : (s.setDraws v).pad = s.pad := rfl
@[simp] theorem State.setDraws_draws (s : State) (v : Nat) : (s.setDraws v).draws = v := rfl
@[simp] theorem State.setDraws_host (s : State) (v : Nat) : (s.setDraws v).host = s.host := rfl
@[simp] theorem State.setHost_config (s : State) (v : HostPort) : (s.setHost v).config = s.config := rfl
@[simp] theorem State.setHost_a (s : State) (v : HostPort) : (s.setHost v).a = s.a := rfl
@[simp] theorem State.setHost_x (s : State) (v : HostPort) : (s.setHost v).x = s.x := rfl
@[simp] theorem State.setHost_y (s : State) (v : HostPort) : (s.setHost v).y = s.y := rfl
@[simp] theorem State.setHost_sp (s : State) (v : HostPort) : (s.setHost v).sp = s.sp := rfl
@[simp] theorem State.setHost_p (s : State) (v : HostPort) : (s.setHost v).p = s.p := rfl
@[simp] theorem State.setHost_pc (s : State) (v : HostPort) : (s.setHost v).pc = s.pc := rfl
@[simp] theorem State.setHost_cache (s : State) (v : HostPort) : (s.setHost v).cache = s.cache := rfl
@[simp] theorem State.setHost_cur (s : State) (v : HostPort) : (s.setHost v).cur = s.cur := rfl
@[simp] theorem State.setHost_cycles (s : State) (v : HostPort) : (s.setHost v).cycles = s.cycles := rfl
@[simp] theorem State.setHost_nmiLine (s : State) (v : HostPort) : (s.setHost v).nmiLine = s.nmiLine := rfl
@[simp] theorem State.setHost_irqLine (s : State) (v : HostPort) : (s.setHost v).irqLine = s.irqLine := rfl
@[simp] theorem State.setHost_ram (s : State) (v : HostPort) : (s.setHost v).ram = s.ram := rfl
@[simp] theorem State.setHost_prgRom (s : State) (v : HostPort) : (s.setHost v).prgRom = s.prgRom := rfl
@[simp] theorem State.setHost_prgRam (s : State) (v : HostPort) : (s.setHost v).prgRam = s.prgRam := rfl
@[simp] theorem State.setHost_chrRom (s : State) (v : HostPort) : (s.setHost v).chrRom = s.chrRom := rfl
@[simp] theorem State.setHost_chrRam (s : State) (v : HostPort) : (s.setHost v).chrRam = s.chrRam := rfl
@[simp] theorem State.setHost_ciram (s : State) (v : HostPort) : (s.setHost v).ciram = s.ciram := rfl
@[simp] theorem State.setHost_palette (s : State) (v : HostPort) : (s.setHost v).palette = s.palette := rfl
@[simp] theorem State.setHost_oam (s : State) (v : HostPort) : (s.setHost v).oam = s.oam := rfl
@[simp] theorem State.setHost_frame (s : State) (v : HostPort) : (s.setHost v).frame = s.frame := rfl
@[simp] theorem State.setHost_ppu (s : State) (v : HostPort) : (s.setHost v).ppu = s.ppu := rfl
@[simp] theorem State.setHost_cart (s : State) (v : HostPort) : (s.setHost v).cart = s.cart := rfl
@[simp] theorem State.setHost_map (s : State) (v : HostPort) : (s.setHost v).map = s.map := rfl
@[simp] theorem State.setHost_pad (s : State) (v : HostPort) : (s.setHost v).pad = s.pad := rfl
@[simp] theorem State.setHost_draws (s : State) (v : HostPort) : (s.setHost v).draws = s.draws := rfl
@[simp] theorem State.setHost_host (s : State) (v : HostPort) : (s.setHost v).host = v := rfl

end Sys2Proof.Machine
end

