-- ==== Sys2Proof/Laws/Bus.lean ====
section
/-! SUPPORT. What the bus operations can do, said once each: reads, writes, words, the stack, OAM DMA, taking an exception. -/

namespace Sys2Proof.Machine

/-! ## Frames -/

theorem OnlyRead.refl (s : State) : OnlyRead s s := by constructor <;> rfl

theorem OnlyRead.trans {s t u : State} (h : OnlyRead s t) (k : OnlyRead t u) : OnlyRead s u := by
  have hp := k.ppu
  have hd := k.pad
  rw [h.ppu] at hp
  rw [h.pad] at hd
  constructor
  case ppu => rw [hp]
  case pad => rw [hd]
  all_goals first
    | exact k.config.trans h.config | exact k.a.trans h.a | exact k.x.trans h.x | exact k.y.trans h.y
    | exact k.sp.trans h.sp | exact k.p.trans h.p | exact k.pc.trans h.pc | exact k.cache.trans h.cache
    | exact k.cur.trans h.cur | exact k.cycles.trans h.cycles | exact k.nmiLine.trans h.nmiLine
    | exact k.irqLine.trans h.irqLine | exact k.ram.trans h.ram | exact k.prgRom.trans h.prgRom
    | exact k.prgRam.trans h.prgRam | exact k.chrRom.trans h.chrRom | exact k.chrRam.trans h.chrRam
    | exact k.ciram.trans h.ciram | exact k.palette.trans h.palette | exact k.oam.trans h.oam
    | exact k.frame.trans h.frame | exact k.cart.trans h.cart | exact k.map.trans h.map | exact k.host.trans h.host

theorem OnlyWritten.refl (s : State) : OnlyWritten s s := by constructor <;> rfl

theorem OnlyWritten.trans {s t u : State} (h : OnlyWritten s t) (k : OnlyWritten t u) : OnlyWritten s u := by
  constructor
  all_goals first
    | exact k.config.trans h.config | exact k.a.trans h.a | exact k.x.trans h.x | exact k.y.trans h.y
    | exact k.sp.trans h.sp | exact k.p.trans h.p | exact k.pc.trans h.pc | exact k.cache.trans h.cache
    | exact k.cur.trans h.cur | exact k.prgRom.trans h.prgRom | exact k.chrRom.trans h.chrRom
    | exact k.frame.trans h.frame | exact k.cart.trans h.cart | exact k.host.trans h.host

theorem OnlyRead.onlyWritten {s t : State} (h : OnlyRead s t) : OnlyWritten s t :=
  { config := h.config, a := h.a, x := h.x, y := h.y, sp := h.sp, p := h.p, pc := h.pc, cache := h.cache, cur := h.cur,
    prgRom := h.prgRom, chrRom := h.chrRom, frame := h.frame, cart := h.cart, host := h.host }

/-! ## Reads -/

theorem drawRead_onlyRead (s : State) : OnlyRead s (drawRead s).state := by constructor <;> rfl

theorem ppuRegRead_onlyRead (r : PpuReg) (s : State) : OnlyRead s (ppuRegRead r s).state := by
  cases r
  case data =>
    simp only [ppuRegRead, dataRead]
    split <;> constructor <;> rfl
  all_goals constructor <;> rfl

theorem padRead_onlyRead (s : State) : OnlyRead s (padRead s).state := by
  constructor
  case pad => simp only [padRead, State.setPad_pad, Pad.afterRead]; split <;> rfl
  all_goals rfl

/-- All that a CPU read can change (20_memory R158). -/
theorem memRead_onlyRead (a : Word) (s : State) : OnlyRead s (memRead a s).state := by
  unfold memRead
  split
  case h_2 => exact ppuRegRead_onlyRead _ s
  case h_3 => exact drawRead_onlyRead s
  case h_4 => exact drawRead_onlyRead s
  case h_5 => exact padRead_onlyRead s
  all_goals constructor <;> rfl

/-- A read of memory gives the byte there and changes nothing (20_memory R158). -/
theorem memRead_of_peek {a : Word} {s : State} {b : Byte} (h : peek s a = some b) :
    memRead a s = { value := b, state := s } := by
  unfold peek at h
  unfold memRead cpuRegion
  by_cases h1 : a.toNat < 0x2000
  · simp only [h1, if_true] at h ⊢; simp_all
  · by_cases h2 : a.toNat < 0x6000
    · simp [h1, h2] at h
    · have e2 : ¬ a.toNat < 0x4000 := by omega
      have e3 : ¬ a.toNat = 0x4014 := by omega
      have e4 : ¬ a.toNat = 0x4016 := by omega
      have e5 : ¬ a.toNat = 0x4017 := by omega
      by_cases h3 : a.toNat < 0x8000
      · simp only [h1, h2, h3, e2, e3, e4, e5, if_true, if_false] at h ⊢; simp_all
      · simp only [h1, h2, h3, e2, e3, e4, e5, if_false] at h ⊢; simp_all

/-- The executable range is exactly where there is memory (31_decode_cache_and_run R304). -/
theorem peek_isSome (s : State) (a : Word) : (peek s a).isSome = executable a := by
  unfold peek executable
  by_cases h1 : a.toNat < 0x2000
  · simp [h1]
  · by_cases h2 : a.toNat < 0x6000
    · have : ¬ 0x6000 ≤ a.toNat := by omega
      simp [h1, h2, this]
    · have : 0x6000 ≤ a.toNat := by omega
      simp only [h1, h2, this, if_false]
      split <;> simp

theorem readPair_onlyRead (l h : Word) (s : State) : OnlyRead s (readPair l h s).state :=
  (memRead_onlyRead l s).trans (memRead_onlyRead h _)

theorem readPair_of_peek {l h : Word} {s : State} {b c : Byte} (hl : peek s l = some b) (hh : peek s h = some c) :
    readPair l h s = { value := mkWord c b, state := s } := by
  simp only [readPair, memRead_of_peek hl, memRead_of_peek hh]

/-- Zero page is always memory, so a zero-page pointer is read with no side effect (30_encoding R262, R263). -/
theorem peek_zeroPage (s : State) (b : Byte) : peek s (zext16 b) = some (s.ram.read b.toNat) := by
  have h : (zext16 b).toNat = b.toNat := by
    simp only [zext16, BitVec.toNat_setWidth]; exact Nat.mod_eq_of_lt (by omega)
  have h1 : (zext16 b).toNat < 0x2000 := by omega
  have h2 : b.toNat % 2048 = b.toNat := Nat.mod_eq_of_lt (by omega)
  rw [peek, if_pos h1, h, h2]

theorem zeroPagePointer_eq (p : Byte) (s : State) :
    zeroPagePointer p s =
      { value := mkWord (s.ram.read (p + 1).toNat) (s.ram.read p.toNat), state := s } :=
  readPair_of_peek (peek_zeroPage s p) (peek_zeroPage s (p + 1))

theorem ea_onlyRead (m : MemOperand) (s : State) : OnlyRead s (m.ea s).state := by
  cases m
  case ind op => exact readPair_onlyRead _ _ s
  case izx op => exact readPair_onlyRead _ _ s
  case izy op => exact readPair_onlyRead _ _ s
  all_goals exact OnlyRead.refl s

theorem load_onlyRead (o : Source) (s : State) : OnlyRead s (o.load s).state := by
  cases o
  case imm op => exact OnlyRead.refl s
  case mem m => exact (ea_onlyRead m s).trans (memRead_onlyRead _ _)

/-! ## Writes -/

theorem windowWrite_onlyWritten (w : Window) (a : Nat) (d : Byte) (s : State) : OnlyWritten s (windowWrite w a d s) := by
  unfold windowWrite
  split <;> constructor <;> rfl

theorem vWrite_onlyWritten (a : VAddr) (d : Byte) (s : State) : OnlyWritten s (vWrite a d s) := by
  unfold vWrite
  split
  · exact windowWrite_onlyWritten _ _ d s
  · split <;> constructor <;> rfl

theorem setPpu_onlyWritten (s : State) (q : Ppu) : OnlyWritten s (s.setPpu q) := by constructor <;> rfl

theorem ppuRegWrite_onlyWritten (r : PpuReg) (d : Byte) (s : State) : OnlyWritten s (ppuRegWrite r d s) := by
  cases r
  case data => exact (vWrite_onlyWritten _ d s).trans (setPpu_onlyWritten _ _)
  case scroll => simp only [ppuRegWrite, scrollWrite]; split <;> exact setPpu_onlyWritten _ _
  case addr => simp only [ppuRegWrite, addrWrite]; split <;> exact setPpu_onlyWritten _ _
  all_goals constructor <;> rfl

theorem mapperWrite_onlyWritten (a : Word) (d : Byte) (s : State) : OnlyWritten s (mapperWrite a d s) := by
  constructor <;> rfl

theorem dmaByte_onlyWritten (page : Byte) (i : Nat) (s : State) : OnlyWritten s (dmaByte page i s) := by
  refine (memRead_onlyRead (mkWord page (BitVec.ofNat 8 i)) s).onlyWritten.trans ?_
  constructor <;> rfl

theorem dmaFrom_onlyWritten (page : Byte) (n : Nat) (s : State) : OnlyWritten s (dmaFrom page n s) := by
  induction n generalizing s with
  | zero => exact OnlyWritten.refl s
  | succ k ih => exact (dmaByte_onlyWritten page _ s).trans (ih _)

theorem oamDma_onlyWritten (d : Byte) (s : State) : OnlyWritten s (oamDma d s) := by
  refine (dmaFrom_onlyWritten d 256 s).trans ?_
  constructor <;> rfl

/-- What no CPU write changes (20_memory R151). -/
theorem memWrite_onlyWritten (a : Word) (d : Byte) (s : State) : OnlyWritten s (memWrite a d s) := by
  unfold memWrite
  split
  case h_2 => exact ppuRegWrite_onlyWritten _ d s
  case h_3 => exact oamDma_onlyWritten d s
  case h_7 => exact windowWrite_onlyWritten _ _ d s
  case h_8 => exact mapperWrite_onlyWritten a d s
  all_goals constructor <;> rfl

/-! ## The stack -/

theorem mkWord_toNat (h l : Byte) : (mkWord h l).toNat = h.toNat * 256 + l.toNat := by
  simp only [mkWord, BitVec.toNat_append]
  rw [← Nat.shiftLeft_add_eq_or_of_lt (by omega), Nat.shiftLeft_eq]

theorem stackAddr_toNat (s : State) : (stackAddr s).toNat = 256 + s.sp.toNat := by
  simp [stackAddr, mkWord_toNat]

theorem cpuRegion_stack (c : Config) (s : State) : cpuRegion c (stackAddr s) = .ram := by
  have h := stackAddr_toNat s
  have h1 : (stackAddr s).toNat < 0x2000 := by omega
  simp only [cpuRegion, h1, if_true]

/-- A push stores a byte in page 1 of RAM and decrements S (00_scope R12). -/
theorem push_eq (v : Byte) (s : State) :
    push v s = (s.setRam (s.ram.write (256 + s.sp.toNat) v)).setSp (s.sp - 1) := by
  have h : (256 + s.sp.toNat) % 2048 = 256 + s.sp.toNat := Nat.mod_eq_of_lt (by omega)
  simp only [push, memWrite, cpuRegion_stack, stackAddr_toNat, h, State.setRam_sp]

/-- A pull increments S and gives the byte of page 1 of RAM there (00_scope R12). -/
theorem pull_eq (s : State) :
    pull s = { value := s.ram.read (256 + (s.sp + 1).toNat), state := s.setSp (s.sp + 1) } := by
  have h : (256 + (s.sp + 1).toNat) % 2048 = 256 + (s.sp + 1).toNat := Nat.mod_eq_of_lt (by omega)
  simp only [pull, memRead, cpuRegion_stack, stackAddr_toNat, State.setSp_sp, State.setSp_ram, h]

theorem pushWord_eq (w : Word) (s : State) :
    pushWord w s =
      (s.setRam ((s.ram.write (256 + s.sp.toNat) (hi w)).write (256 + (s.sp - 1).toNat) (lo w))).setSp (s.sp - 1 - 1) := by
  simp only [pushWord, push_eq, State.setSp_sp, State.setSp_ram, State.setRam_ram]
  rfl

theorem pullWord_eq (s : State) :
    pullWord s =
      { value := mkWord (s.ram.read (256 + (s.sp + 1 + 1).toNat)) (s.ram.read (256 + (s.sp + 1).toNat)),
        state := s.setSp (s.sp + 1 + 1) } := by
  simp only [pullWord, pull_eq, State.setSp_sp, State.setSp_ram]
  rfl

/-- A word at or above $8000 is read from the PRG windows with no side effect (20_memory R155, R158). -/
theorem memRead16_vector (a : Word) (s : State) (h : 0x8000 ≤ a.toNat) (h' : a.toNat < 0xFFFF) :
    memRead16 a s =
      { value := mkWord (windowRead s (s.map.prgWindow (a + 1)) (a + 1).toNat) (windowRead s (s.map.prgWindow a) a.toNat),
        state := s } := by
  have k : (a + 1).toNat = a.toNat + 1 := by
    have one : (1 : Word).toNat = 1 := rfl
    simp only [BitVec.toNat_add, one]; omega
  refine readPair_of_peek ?_ ?_
  · have h1 : ¬ a.toNat < 0x2000 := by omega
    have h2 : ¬ a.toNat < 0x6000 := by omega
    have h3 : ¬ a.toNat < 0x8000 := by omega
    simp only [peek, h1, h2, h3, if_false]
  · have h1 : ¬ (a + 1).toNat < 0x2000 := by omega
    have h2 : ¬ (a + 1).toNat < 0x6000 := by omega
    have h3 : ¬ (a + 1).toNat < 0x8000 := by omega
    simp only [peek, h1, h2, h3, if_false]

end Sys2Proof.Machine
end

