-- ==== Sys2Proof/Laws/Cache.lean ====
section
/-! SUPPORT. Laws of the decode cache as a finite map (10_state R57, 31_decode_cache_and_run R307). -/

namespace Sys2Proof.Machine

/-- An insertion of a new key adds that entry and keeps every other one. -/
theorem cacheLookup_insert (c : List (Word × Trace)) (k j : Word) (t : Trace) (h : cacheLookup c k = none) :
    cacheLookup (cacheInsert c k t) j = if j = k then some t else cacheLookup c j := by
  induction c with
  | nil =>
    by_cases hj : j = k
    · simp [cacheInsert, cacheLookup, hj]
    · have : ¬ k = j := fun e => hj e.symm
      simp [cacheInsert, cacheLookup, hj, this]
  | cons e rest ih =>
    obtain ⟨i, u⟩ := e
    have hik : ¬ i = k := by intro e; simp [cacheLookup, e] at h
    have hr : cacheLookup rest k = none := by simpa [cacheLookup, hik] using h
    unfold cacheInsert
    by_cases hlt : k.toNat < i.toNat
    · by_cases hj : j = k
      · simp [hlt, cacheLookup, hj]
      · have : ¬ k = j := fun e => hj e.symm
        simp [hlt, cacheLookup, hj, this]
    · by_cases hij : i = j
      · subst hij; simp [hlt, cacheLookup, hik]
      · simp [hlt, cacheLookup, hij, ih hr]

theorem cacheLookup_mem {c : List (Word × Trace)} {k : Word} {t : Trace} (h : cacheLookup c k = some t) :
    (k, t) ∈ c := by
  induction c with
  | nil => simp [cacheLookup] at h
  | cons e rest ih =>
    obtain ⟨i, u⟩ := e
    by_cases hik : i = k
    · simp [cacheLookup, hik] at h; simp [hik, h]
    · simp [cacheLookup, hik] at h; exact List.mem_cons_of_mem _ (ih h)

theorem mem_cacheInsert {c : List (Word × Trace)} {k : Word} {t : Trace} {e : Word × Trace}
    (h : e ∈ cacheInsert c k t) : e = (k, t) ∨ e ∈ c := by
  induction c with
  | nil => simpa [cacheInsert] using h
  | cons d rest ih =>
    obtain ⟨i, u⟩ := d
    unfold cacheInsert at h
    split at h
    · simpa using h
    · rcases List.mem_cons.mp h with h | h
      · simp [h]
      · rcases ih h with h | h <;> simp [h]

/-- The micro-op a decode gives is well-formed, coherent, and at the address asked for (30_encoding R270). -/
theorem decodeAt_ok {s : State} {a : Word} {m : MicroOp} (h : decodeAt s a = .ok m) :
    m = microOpOf a (fetchByte s a) (fetchByte s (a + 1)) (fetchByte s (a + 2)) := by
  unfold decodeAt at h
  dsimp only at h
  split at h
  · simp at h
  · split at h
    · simp at h
    · split at h
      · simp at h
      · simpa using h.symm

theorem microOpOf_coherent (a : Word) (b0 b1 b2 : Byte) : opCoherent (microOpOf a b0 b1 b2) := rfl

end Sys2Proof.Machine
end

