-- ==== Sys2Proof/Laws/Exceptions.lean ====
section
/-! SUPPORT. What taking an exception and returning from one do, as equations over the state before. -/

namespace Sys2Proof.Machine

/-- The word at a vector, through the PRG windows as they are (20_memory R155). -/
def vectorWord (s : State) (v : Word) : Word :=
  mkWord (windowRead s (s.map.prgWindow (v + 1)) (v + 1).toNat) (windowRead s (s.map.prgWindow v) v.toNat)

/-- RAM after the three pushes of an exception (60_exceptions R916). -/
def exceptionRam (s : State) (ret : Word) (status : Byte) : Memory :=
  ((s.ram.write (256 + s.sp.toNat) (hi ret)).write (256 + (s.sp - 1).toNat) (lo ret)).write
    (256 + (s.sp - 1 - 1).toNat) status

/-- Taking an exception changes RAM, S, P and PC and nothing else (60_exceptions R916). -/
theorem takeException_eq (ret : Word) (status : Byte) (v : Word) (s : State) (h : 0x8000 ≤ v.toNat)
    (h' : v.toNat < 0xFFFF) :
    takeException ret status v s =
      (((s.setRam (exceptionRam s ret status)).setSp (s.sp - 1 - 1 - 1)).setP (setI s.p true)).setPc
        (vectorWord s v) := by
  simp only [takeException, pushWord_eq, push_eq, memRead16_vector v _ h h', State.setSp_sp, State.setSp_ram,
    State.setRam_ram]
  rfl

theorem vectors_in_rom :
    (0x8000 ≤ nmiVector.toNat ∧ nmiVector.toNat < 0xFFFF) ∧ (0x8000 ≤ irqVector.toNat ∧ irqVector.toNat < 0xFFFF) ∧
      0x8000 ≤ resetVector.toNat ∧ resetVector.toNat < 0xFFFF := by decide

/-- Returning from an exception changes S, P and PC and nothing else (42_control_flags_misc R512). -/
theorem returnFromException_eq (s : State) :
    returnFromException s =
      ((s.setSp (s.sp + 1 + 1 + 1)).setP (restoredP (s.ram.read (256 + (s.sp + 1).toNat)))).setPc
        (mkWord (s.ram.read (256 + (s.sp + 1 + 1 + 1).toNat)) (s.ram.read (256 + (s.sp + 1 + 1).toNat))) := by
  simp only [returnFromException, pull_eq, pullWord_eq, State.setP_sp, State.setP_ram, State.setSp_sp, State.setSp_ram]
  rfl

/-- NMI entry (60_exceptions R912). -/
theorem enterNmi_eq (s : State) :
    enterNmi s =
      ((((((s.setNmiLine false).setRam (exceptionRam s s.pc (pushedByInterrupt s.p))).setSp (s.sp - 1 - 1 - 1)).setP
        (setI s.p true)).setPc (vectorWord s nmiVector)).setCur none) := by
  rw [enterNmi, takeException_eq _ _ _ _ vectors_in_rom.1.1 vectors_in_rom.1.2]
  rfl

/-- IRQ entry (60_exceptions R913). -/
theorem enterIrq_eq (s : State) :
    enterIrq s =
      (((((s.setRam (exceptionRam s s.pc (pushedByInterrupt s.p))).setSp (s.sp - 1 - 1 - 1)).setP
        (setI s.p true)).setPc (vectorWord s irqVector)).setCur none) := by
  rw [enterIrq, takeException_eq _ _ _ _ vectors_in_rom.2.1.1 vectors_in_rom.2.1.2]

end Sys2Proof.Machine
end

