-- ==== Sys2Proof/Laws/Flags.lean ====
section
/-! SUPPORT. What a flag write does to each bit of P, and that the named flags are the bits of 10_state R53. -/

namespace Sys2Proof.Machine

theorem setBit_getLsbD (p : Byte) (b : Bool) (i j : Nat) (hi : i < 8) (hj : j < 8) :
    (setBit p i b).getLsbD j = if j = i then b else p.getLsbD j := by
  simp only [setBit, setField, fieldMask, BitVec.getLsbD_or, BitVec.getLsbD_and, BitVec.getLsbD_not,
    BitVec.getLsbD_shiftLeft, BitVec.getLsbD_setWidth, BitVec.getLsbD_allOnes, BitVec.getLsbD_ofBool, hj]
  by_cases h : j = i
  · subst h; simp [hj]
  · have : ¬ (j < i) → ¬ (j - i < 1) := by omega
    have k2 : ¬ (j < i) → ¬ (j - i = 0) := by omega
    by_cases hji : j < i <;> simp_all

@[simp] theorem flagC_setC (p : Byte) (b : Bool) : flagC (setC p b) = b :=
  setBit_getLsbD p b _ _ (by decide) (by decide)
@[simp] theorem flagZ_setC (p : Byte) (b : Bool) : flagZ (setC p b) = flagZ p :=
  setBit_getLsbD p b _ _ (by decide) (by decide)
@[simp] theorem flagI_setC (p : Byte) (b : Bool) : flagI (setC p b) = flagI p :=
  setBit_getLsbD p b _ _ (by decide) (by decide)
@[simp] theorem flagD_setC (p : Byte) (b : Bool) : flagD (setC p b) = flagD p :=
  setBit_getLsbD p b _ _ (by decide) (by decide)
@[simp] theorem flagB_setC (p : Byte) (b : Bool) : flagB (setC p b) = flagB p :=
  setBit_getLsbD p b _ _ (by decide) (by decide)
@[simp] theorem flagU_setC (p : Byte) (b : Bool) : flagU (setC p b) = flagU p :=
  setBit_getLsbD p b _ _ (by decide) (by decide)
@[simp] theorem flagV_setC (p : Byte) (b : Bool) : flagV (setC p b) = flagV p :=
  setBit_getLsbD p b _ _ (by decide) (by decide)
@[simp] theorem flagN_setC (p : Byte) (b : Bool) : flagN (setC p b) = flagN p :=
  setBit_getLsbD p b _ _ (by decide) (by decide)
@[simp] theorem flagC_setZ (p : Byte) (b : Bool) : flagC (setZ p b) = flagC p :=
  setBit_getLsbD p b _ _ (by decide) (by decide)
@[simp] theorem flagZ_setZ (p : Byte) (b : Bool) : flagZ (setZ p b) = b :=
  setBit_getLsbD p b _ _ (by decide) (by decide)
@[simp] theorem flagI_setZ (p : Byte) (b : Bool) : flagI (setZ p b) = flagI p :=
  setBit_getLsbD p b _ _ (by decide) (by decide)
@[simp] theorem flagD_setZ (p : Byte) (b : Bool) : flagD (setZ p b) = flagD p :=
  setBit_getLsbD p b _ _ (by decide) (by decide)
@[simp] theorem flagB_setZ (p : Byte) (b : Bool) : flagB (setZ p b) = flagB p :=
  setBit_getLsbD p b _ _ (by decide) (by decide)
@[simp] theorem flagU_setZ (p : Byte) (b : Bool) : flagU (setZ p b) = flagU p :=
  setBit_getLsbD p b _ _ (by decide) (by decide)
@[simp] theorem flagV_setZ (p : Byte) (b : Bool) : flagV (setZ p b) = flagV p :=
  setBit_getLsbD p b _ _ (by decide) (by decide)
@[simp] theorem flagN_setZ (p : Byte) (b : Bool) : flagN (setZ p b) = flagN p :=
  setBit_getLsbD p b _ _ (by decide) (by decide)
@[simp] theorem flagC_setI (p : Byte) (b : Bool) : flagC (setI p b) = flagC p :=
  setBit_getLsbD p b _ _ (by decide) (by decide)
@[simp] theorem flagZ_setI (p : Byte) (b : Bool) : flagZ (setI p b) = flagZ p :=
  setBit_getLsbD p b _ _ (by decide) (by decide)
@[simp] theorem flagI_setI (p : Byte) (b : Bool) : flagI (setI p b) = b :=
  setBit_getLsbD p b _ _ (by decide) (by decide)
@[simp] theorem flagD_setI (p : Byte) (b : Bool) : flagD (setI p b) = flagD p :=
  setBit_getLsbD p b _ _ (by decide) (by decide)
@[simp] theorem flagB_setI (p : Byte) (b : Bool) : flagB (setI p b) = flagB p :=
  setBit_getLsbD p b _ _ (by decide) (by decide)
@[simp] theorem flagU_setI (p : Byte) (b : Bool) : flagU (setI p b) = flagU p :=
  setBit_getLsbD p b _ _ (by decide) (by decide)
@[simp] theorem flagV_setI (p : Byte) (b : Bool) : flagV (setI p b) = flagV p :=
  setBit_getLsbD p b _ _ (by decide) (by decide)
@[simp] theorem flagN_setI (p : Byte) (b : Bool) : flagN (setI p b) = flagN p :=
  setBit_getLsbD p b _ _ (by decide) (by decide)
@[simp] theorem flagC_setD (p : Byte) (b : Bool) : flagC (setD p b) = flagC p :=
  setBit_getLsbD p b _ _ (by decide) (by decide)
@[simp] theorem flagZ_setD (p : Byte) (b : Bool) : flagZ (setD p b) = flagZ p :=
  setBit_getLsbD p b _ _ (by decide) (by decide)
@[simp] theorem flagI_setD (p : Byte) (b : Bool) : flagI (setD p b) = flagI p :=
  setBit_getLsbD p b _ _ (by decide) (by decide)
@[simp] theorem flagD_setD (p : Byte) (b : Bool) : flagD (setD p b) = b :=
  setBit_getLsbD p b _ _ (by decide) (by decide)
@[simp] theorem flagB_setD (p : Byte) (b : Bool) : flagB (setD p b) = flagB p :=
  setBit_getLsbD p b _ _ (by decide) (by decide)
@[simp] theorem flagU_setD (p : Byte) (b : Bool) : flagU (setD p b) = flagU p :=
  setBit_getLsbD p b _ _ (by decide) (by decide)
@[simp] theorem flagV_setD (p : Byte) (b : Bool) : flagV (setD p b) = flagV p :=
  setBit_getLsbD p b _ _ (by decide) (by decide)
@[simp] theorem flagN_setD (p : Byte) (b : Bool) : flagN (setD p b) = flagN p :=
  setBit_getLsbD p b _ _ (by decide) (by decide)
@[simp] theorem flagC_setV (p : Byte) (b : Bool) : flagC (setV p b) = flagC p :=
  setBit_getLsbD p b _ _ (by decide) (by decide)
@[simp] theorem flagZ_setV (p : Byte) (b : Bool) : flagZ (setV p b) = flagZ p :=
  setBit_getLsbD p b _ _ (by decide) (by decide)
@[simp] theorem flagI_setV (p : Byte) (b : Bool) : flagI (setV p b) = flagI p :=
  setBit_getLsbD p b _ _ (by decide) (by decide)
@[simp] theorem flagD_setV (p : Byte) (b : Bool) : flagD (setV p b) = flagD p :=
  setBit_getLsbD p b _ _ (by decide) (by decide)
@[simp] theorem flagB_setV (p : Byte) (b : Bool) : flagB (setV p b) = flagB p :=
  setBit_getLsbD p b _ _ (by decide) (by decide)
@[simp] theorem flagU_setV (p : Byte) (b : Bool) : flagU (setV p b) = flagU p :=
  setBit_getLsbD p b _ _ (by decide) (by decide)
@[simp] theorem flagV_setV (p : Byte) (b : Bool) : flagV (setV p b) = b :=
  setBit_getLsbD p b _ _ (by decide) (by decide)
@[simp] theorem flagN_setV (p : Byte) (b : Bool) : flagN (setV p b) = flagN p :=
  setBit_getLsbD p b _ _ (by decide) (by decide)
@[simp] theorem flagC_setN (p : Byte) (b : Bool) : flagC (setN p b) = flagC p :=
  setBit_getLsbD p b _ _ (by decide) (by decide)
@[simp] theorem flagZ_setN (p : Byte) (b : Bool) : flagZ (setN p b) = flagZ p :=
  setBit_getLsbD p b _ _ (by decide) (by decide)
@[simp] theorem flagI_setN (p : Byte) (b : Bool) : flagI (setN p b) = flagI p :=
  setBit_getLsbD p b _ _ (by decide) (by decide)
@[simp] theorem flagD_setN (p : Byte) (b : Bool) : flagD (setN p b) = flagD p :=
  setBit_getLsbD p b _ _ (by decide) (by decide)
@[simp] theorem flagB_setN (p : Byte) (b : Bool) : flagB (setN p b) = flagB p :=
  setBit_getLsbD p b _ _ (by decide) (by decide)
@[simp] theorem flagU_setN (p : Byte) (b : Bool) : flagU (setN p b) = flagU p :=
  setBit_getLsbD p b _ _ (by decide) (by decide)
@[simp] theorem flagV_setN (p : Byte) (b : Bool) : flagV (setN p b) = flagV p :=
  setBit_getLsbD p b _ _ (by decide) (by decide)
@[simp] theorem flagN_setN (p : Byte) (b : Bool) : flagN (setN p b) = b :=
  setBit_getLsbD p b _ _ (by decide) (by decide)

theorem setNZ_flags (p r : Byte) : FlagsFromResult p (setNZ p r) r := by
  simp only [FlagsFromResult, setNZ, flagZ_setN, flagZ_setZ, flagN_setN, flagC_setN, flagC_setZ, flagI_setN, flagI_setZ,
    flagD_setN, flagD_setZ, flagB_setN, flagB_setZ, flagU_setN, flagU_setZ, flagV_setN, flagV_setZ, and_self]

/-- The flags of a shift or rotate (41_arith_logic_shift R465). -/
theorem shift_flags (p r : Byte) (c : Bool) : FlagsFromShift p (setNZ (setC p c) r) r c := by
  simp only [FlagsFromShift, setNZ, flagZ_setN, flagZ_setZ, flagN_setN, flagC_setN, flagC_setZ, flagI_setN, flagI_setZ,
    flagD_setN, flagD_setZ, flagB_setN, flagB_setZ, flagU_setN, flagU_setZ, flagV_setN, flagV_setZ, flagC_setC, flagI_setC,
    flagD_setC, flagB_setC, flagU_setC, flagV_setC, and_self]

/-- A restored P has B = 0 and U = 1 whatever the byte held (10_state R54). -/
theorem restoredP_fixed (v : Byte) : flagB (restoredP v) = false ∧ flagU (restoredP v) = true := by
  revert v; decide

end Sys2Proof.Machine
end

