-- ==== Sys2Proof/Laws/Exec.lean ====
section
/-! SUPPORT. What an instruction and an interrupt entry are made of: bus reads, bus writes and register changes, said once for
every instruction, so that a property which each of these keeps is kept by `exec`. -/

namespace Sys2Proof.Machine

/-- P after keeps the bits B and U of P before (10_state R54). -/
def KeepsFixed (before after : Byte) : Prop := flagB after = flagB before ∧ flagU after = flagU before

/-- The changes an instruction is made of. -/
inductive Move (s : State) : State → Prop where
  | read (a : Word) : Move s (memRead a s).state
  | write (a : Word) (d : Byte) : Move s (memWrite a d s)
  | reg (r : Reg) (v : Byte) : Move s (s.setReg r v)
  | status (v : Byte) (h : KeepsFixed s.p v ∨ (flagB v = false ∧ flagU v = true)) : Move s (s.setP v)
  | pc (v : Word) : Move s (s.setPc v)
  | cycles (v : Nat) : Move s (s.setCycles v)

/-- Any number of moves, one after another. -/
inductive Moves : State → State → Prop where
  | refl (s : State) : Moves s s
  | tail {s t u : State} (h : Moves s t) (m : Move t u) : Moves s u

theorem Moves.one {s t : State} (m : Move s t) : Moves s t := .tail (.refl s) m

theorem Moves.trans {s t u : State} (h : Moves s t) (k : Moves t u) : Moves s u := by
  induction k with
  | refl => exact h
  | tail _ m ih => exact ih.tail m

/-- What every move keeps, moves keep. -/
theorem Moves.keeps {P : State → Prop} (step : ∀ s t, Move s t → P s → P t) {s t : State} (h : Moves s t) (p : P s) :
    P t := by
  induction h with
  | refl => exact p
  | tail _ m ih => exact step _ _ m ih

/-! ## The shared operations as moves -/

theorem readPair_moves (l h : Word) (s : State) : Moves s (readPair l h s).state :=
  (Moves.one (.read l)).tail (.read h)

theorem ea_moves (m : MemOperand) (s : State) : Moves s (m.ea s).state := by
  cases m <;> first | exact .refl s | exact readPair_moves _ _ s

theorem load_moves (o : Source) (s : State) : Moves s (o.load s).state := by
  cases o with
  | imm => exact .refl s
  | mem m => exact (ea_moves m s).tail (.read _)

theorem retire_moves (opcode : Byte) (len : Nat) (crossed : Bool) (s : State) :
    Moves s (retire opcode len crossed s) := (Moves.one (.pc _)).tail (.cycles _)

theorem retireTo_moves (opcode : Byte) (target : Word) (s : State) : Moves s (retireTo opcode target s) :=
  (Moves.one (.pc _)).tail (.cycles _)

theorem push_moves (v : Byte) (s : State) : Moves s (push v s) := (Moves.one (.write _ v)).tail (.reg .sp _)

theorem pull_moves (s : State) : Moves s (pull s).state := (Moves.one (.reg .sp _)).tail (.read _)

theorem pushWord_moves (w : Word) (s : State) : Moves s (pushWord w s) := (push_moves _ s).trans (push_moves _ _)

theorem pullWord_moves (s : State) : Moves s (pullWord s).state := (pull_moves s).trans (pull_moves _)

theorem setBit_keeps {p q : Byte} (h : KeepsFixed p q) (i : Nat) (b : Bool) (hi : i < 8) (h4 : i ≠ 4) (h5 : i ≠ 5) :
    KeepsFixed p (setBit q i b) := by
  refine ⟨?_, ?_⟩
  · rw [flagB, setBit_getLsbD _ _ _ _ hi (by decide), if_neg (by omega)]; exact h.1
  · rw [flagU, setBit_getLsbD _ _ _ _ hi (by decide), if_neg (by omega)]; exact h.2

theorem KeepsFixed.refl (p : Byte) : KeepsFixed p p := ⟨rfl, rfl⟩

theorem setI_keeps (p : Byte) (b : Bool) : KeepsFixed p (setI p b) :=
  setBit_keeps (KeepsFixed.refl p) 2 b (by decide) (by decide) (by decide)

theorem takeException_moves (ret : Word) (status : Byte) (v : Word) (s : State) :
    Moves s (takeException ret status v s) :=
  ((((pushWord_moves ret s).trans (push_moves status _)).tail (.status _ (.inl (setI_keeps _ _)))).trans
    (readPair_moves _ _ _)).tail (.pc _)

theorem returnFromException_moves (s : State) : Moves s (returnFromException s) :=
  (((pull_moves s).tail (.status _ (.inr (restoredP_fixed _)))).trans (pullWord_moves _)).tail (.pc _)

/-! ## The flag computations keep B and U -/

theorem setNZ_keeps {p q : Byte} (h : KeepsFixed p q) (r : Byte) : KeepsFixed p (setNZ q r) :=
  setBit_keeps (setBit_keeps h 1 _ (by decide) (by decide) (by decide)) 7 _ (by decide) (by decide) (by decide)

theorem setC_keeps {p q : Byte} (h : KeepsFixed p q) (b : Bool) : KeepsFixed p (setC q b) :=
  setBit_keeps h 0 b (by decide) (by decide) (by decide)

theorem setV_keeps {p q : Byte} (h : KeepsFixed p q) (b : Bool) : KeepsFixed p (setV q b) :=
  setBit_keeps h 6 b (by decide) (by decide) (by decide)

theorem setD_keeps {p q : Byte} (h : KeepsFixed p q) (b : Bool) : KeepsFixed p (setD q b) :=
  setBit_keeps h 3 b (by decide) (by decide) (by decide)

theorem adc_keeps (a m p : Byte) : KeepsFixed p (adc a m p).p :=
  setNZ_keeps (setV_keeps (setC_keeps (KeepsFixed.refl p) _) _) _

theorem bitFlags_keeps (a m p : Byte) : KeepsFixed p (bitFlags a m p) := by
  have z : KeepsFixed p (setZ p ((a &&& m) = 0)) :=
    setBit_keeps (KeepsFixed.refl p) 1 _ (by decide) (by decide) (by decide)
  exact setV_keeps (setBit_keeps z 7 _ (by decide) (by decide) (by decide)) _

theorem compareFlags_keeps (r m p : Byte) : KeepsFixed p (compareFlags r m p) :=
  setBit_keeps (setBit_keeps (setC_keeps (KeepsFixed.refl p) _) 1 _ (by decide) (by decide) (by decide)) 7 _ (by decide)
    (by decide) (by decide)

/-! ## Every instruction -/

/-- What an instruction of length `len` that goes on does: moves, and PC past it unless it transfers control. -/
structure Runs (s t : State) (len : Nat) (transfers : Bool) : Prop where
  moves : Moves s t
  pc : transfers = false → t.pc = s.pc + BitVec.ofNat 16 len

/-- The end of an instruction after moves that leave PC alone. -/
theorem Runs.retired {s t : State} (h : Moves s t) (hpc : t.pc = s.pc) (opcode : Byte) (len : Nat) (crossed : Bool) :
    Runs s (retire opcode len crossed t) len false :=
  ⟨h.trans (retire_moves opcode len crossed t), fun _ => by simp [retire, charge, hpc]⟩

theorem setReg_pc (s : State) (r : Reg) (v : Byte) : (s.setReg r v).pc = s.pc := by cases r <;> rfl

theorem setReg_p (s : State) (r : Reg) (v : Byte) : (s.setReg r v).p = s.p := by cases r <;> rfl

theorem loadReg_runs (r : Reg) (opcode : Byte) (o : Source) (s : State) :
    ∃ t, loadReg r opcode o s = .next t ∧ Runs s t o.length false := by
  refine ⟨_, rfl, Runs.retired (((load_moves o s).tail (.reg r _)).tail (.status _ (.inl ?_))) ?_ _ _ _⟩
  · rw [setReg_p]; exact setNZ_keeps (KeepsFixed.refl _) _
  · rw [State.setP_pc, setReg_pc, (load_onlyRead o s).pc]

theorem storeReg_runs (r : Reg) (opcode : Byte) (m : MemOperand) (s : State) :
    ∃ t, storeReg r opcode m s = .next t ∧ Runs s t m.length false := by
  refine ⟨_, rfl, Runs.retired ((ea_moves m s).tail (.write _ _)) ?_ _ _ _⟩
  rw [(memWrite_onlyWritten _ _ _).pc, (ea_onlyRead m s).pc]

theorem transfer_runs (src dst : Reg) (opcode : Byte) (s : State) :
    ∃ t, transfer src dst opcode s = .next t ∧ Runs s t 1 false := by
  refine ⟨_, rfl, Runs.retired ((Moves.one (.reg dst _)).tail (.status _ (.inl ?_))) ?_ _ _ _⟩
  · rw [setReg_p]; exact setNZ_keeps (KeepsFixed.refl _) _
  · rw [State.setP_pc, setReg_pc]

theorem accumulate_runs (f : Byte → Byte → Byte → AluOut) (hf : ∀ a m p, KeepsFixed p (f a m p).p) (opcode : Byte)
    (o : Source) (s : State) : ∃ t, accumulate f opcode o s = .next t ∧ Runs s t o.length false := by
  refine ⟨_, rfl, Runs.retired (((load_moves o s).tail (.reg .a _)).tail (.status _ (.inl ?_))) ?_ _ _ _⟩
  · exact hf _ _ _
  · exact (load_onlyRead o s).pc

theorem testReg_runs (f : Byte → Byte → Byte → Byte) (hf : ∀ a m p, KeepsFixed p (f a m p)) (r : Reg) (opcode : Byte)
    (o : Source) (s : State) : ∃ t, testReg f r opcode o s = .next t ∧ Runs s t o.length false := by
  refine ⟨_, rfl, Runs.retired ((load_moves o s).tail (.status _ (.inl (hf _ _ _)))) ?_ _ _ _⟩
  exact (load_onlyRead o s).pc

theorem modifyMem_runs (f : Byte → Byte → AluOut) (hf : ∀ m p, KeepsFixed p (f m p).p) (opcode : Byte)
    (m : MemOperand) (s : State) : ∃ t, modifyMem f opcode m s = .next t ∧ Runs s t m.length false := by
  refine ⟨_, rfl, Runs.retired ((((ea_moves m s).tail (.read _)).tail (.write _ _)).tail (.status _ (.inl ?_))) ?_ _ _ _⟩
  · rw [(memWrite_onlyWritten _ _ _).p]; exact hf _ _
  · rw [State.setP_pc, (memWrite_onlyWritten _ _ _).pc, (memRead_onlyRead _ _).pc, (ea_onlyRead m s).pc]

theorem modifyReg_runs (f : Byte → Byte → AluOut) (hf : ∀ m p, KeepsFixed p (f m p).p) (r : Reg) (opcode : Byte)
    (s : State) : ∃ t, modifyReg f r opcode s = .next t ∧ Runs s t 1 false := by
  refine ⟨_, rfl, Runs.retired ((Moves.one (.reg r _)).tail (.status _ (.inl ?_))) ?_ _ _ _⟩
  · rw [setReg_p]; exact hf _ _
  · rw [State.setP_pc, setReg_pc]

theorem changeP_runs (f : Byte → Byte) (hf : ∀ p, KeepsFixed p (f p)) (opcode : Byte) (s : State) :
    ∃ t, changeP f opcode s = .next t ∧ Runs s t 1 false :=
  ⟨_, rfl, Runs.retired (Moves.one (.status _ (.inl (hf _)))) rfl _ _ _⟩

theorem branch_runs (taken : Bool) (opcode op : Byte) (s : State) :
    ∃ t, branch taken opcode op s = .next t ∧ Runs s t 2 true := by
  cases taken
  · exact ⟨_, rfl, retireTo_moves _ _ s, by simp⟩
  · exact ⟨_, rfl, (retireTo_moves _ _ s).tail (.cycles _), by simp⟩

theorem alu_keeps :
    (∀ a m p, KeepsFixed p (adc a m p).p) ∧ (∀ a m p, KeepsFixed p (sbc a m p).p) ∧
      (∀ a m p, KeepsFixed p (andOp a m p).p) ∧ (∀ a m p, KeepsFixed p (oraOp a m p).p) ∧
      (∀ a m p, KeepsFixed p (eorOp a m p).p) :=
  ⟨adc_keeps, fun a _ p => adc_keeps a _ p, fun _ _ p => setNZ_keeps (KeepsFixed.refl p) _,
    fun _ _ p => setNZ_keeps (KeepsFixed.refl p) _, fun _ _ p => setNZ_keeps (KeepsFixed.refl p) _⟩

theorem modify_keeps :
    (∀ m p, KeepsFixed p (incOp m p).p) ∧ (∀ m p, KeepsFixed p (decOp m p).p) ∧ (∀ m p, KeepsFixed p (aslOp m p).p) ∧
      (∀ m p, KeepsFixed p (lsrOp m p).p) ∧ (∀ m p, KeepsFixed p (rolOp m p).p) ∧ (∀ m p, KeepsFixed p (rorOp m p).p) :=
  ⟨fun _ p => setNZ_keeps (KeepsFixed.refl p) _, fun _ p => setNZ_keeps (KeepsFixed.refl p) _,
    fun _ p => setNZ_keeps (setC_keeps (KeepsFixed.refl p) _) _,
    fun _ p => setNZ_keeps (setC_keeps (KeepsFixed.refl p) _) _,
    fun _ p => setNZ_keeps (setC_keeps (KeepsFixed.refl p) _) _,
    fun _ p => setNZ_keeps (setC_keeps (KeepsFixed.refl p) _) _⟩

/-- Every instruction goes on: it is made of moves, keeps the cache and the cursor, and, unless it transfers control,
advances PC by its length (10_state R52, 60_exceptions R900). -/
theorem exec_runs (i : Instr) (s : State) :
    ∃ t, exec i s = .next t ∧ Runs s t i.mode.length i.kind.isControlTransfer := by
  have ⟨hadc, hsbc, hand, hora, heor⟩ := alu_keeps
  have ⟨hinc, hdec, hasl, hlsr, hrol, hror⟩ := modify_keeps
  cases i
  case txs => exact ⟨_, rfl, Runs.retired (Moves.one (.reg .sp _)) rfl _ _ _⟩
  case pha => exact ⟨_, rfl, Runs.retired (push_moves _ s) (by rw [push_eq]; rfl) _ _ _⟩
  case php => exact ⟨_, rfl, Runs.retired (push_moves _ s) (by rw [push_eq]; rfl) _ _ _⟩
  case pla =>
    refine ⟨_, rfl, Runs.retired (((pull_moves s).tail (.reg .a _)).tail (.status _ (.inl ?_))) ?_ _ _ _⟩
    · exact setNZ_keeps (KeepsFixed.refl _) _
    · rw [State.setP_pc, setReg_pc, pull_eq]; rfl
  case plp =>
    refine ⟨_, rfl, Runs.retired ((pull_moves s).tail (.status _ (.inr (restoredP_fixed _)))) ?_ _ _ _⟩
    rw [State.setP_pc, pull_eq]; rfl
  case jmpAbs => exact ⟨_, rfl, (ea_moves _ s).trans (retireTo_moves _ _ _), by simp [Instr.kind, Kind.isControlTransfer]⟩
  case jmpInd => exact ⟨_, rfl, (ea_moves _ s).trans (retireTo_moves _ _ _), by simp [Instr.kind, Kind.isControlTransfer]⟩
  case jsr => exact ⟨_, rfl, (pushWord_moves _ s).trans (retireTo_moves _ _ _), by simp [Instr.kind, Kind.isControlTransfer]⟩
  case rts => exact ⟨_, rfl, (pullWord_moves s).trans (retireTo_moves _ _ _), by simp [Instr.kind, Kind.isControlTransfer]⟩
  case rti => exact ⟨_, rfl, (returnFromException_moves s).tail (.cycles _), by simp [Instr.kind, Kind.isControlTransfer]⟩
  case brk => exact ⟨_, rfl, (takeException_moves _ _ _ s).tail (.cycles _), by simp [Instr.kind, Kind.isControlTransfer]⟩
  case nop => exact ⟨_, rfl, Runs.retired (.refl s) rfl _ _ _⟩
  case clc => exact changeP_runs _ (fun p => setC_keeps (KeepsFixed.refl p) _) _ s
  case sec => exact changeP_runs _ (fun p => setC_keeps (KeepsFixed.refl p) _) _ s
  case cld => exact changeP_runs _ (fun p => setD_keeps (KeepsFixed.refl p) _) _ s
  case sed => exact changeP_runs _ (fun p => setD_keeps (KeepsFixed.refl p) _) _ s
  case cli => exact changeP_runs _ (fun p => setI_keeps p _) _ s
  case sei => exact changeP_runs _ (fun p => setI_keeps p _) _ s
  case clv => exact changeP_runs _ (fun p => setV_keeps (KeepsFixed.refl p) _) _ s
  case ldaImm | ldaZp | ldaZpx | ldaAbs | ldaAbx | ldaAby | ldaIzx | ldaIzy | ldxImm | ldxZp | ldxZpy | ldxAbs |
      ldxAby | ldyImm | ldyZp | ldyZpx | ldyAbs | ldyAbx => exact loadReg_runs _ _ _ s
  case staZp | staZpx | staAbs | staAbx | staAby | staIzx | staIzy | stxZp | stxZpy | stxAbs | styZp | styZpx |
      styAbs => exact storeReg_runs _ _ _ s
  case tax | tay | txa | tya | tsx => exact transfer_runs _ _ _ s
  case adcImm | adcZp | adcZpx | adcAbs | adcAbx | adcAby | adcIzx | adcIzy => exact accumulate_runs _ hadc _ _ s
  case sbcImm | sbcZp | sbcZpx | sbcAbs | sbcAbx | sbcAby | sbcIzx | sbcIzy => exact accumulate_runs _ hsbc _ _ s
  case andImm | andZp | andZpx | andAbs | andAbx | andAby | andIzx | andIzy => exact accumulate_runs _ hand _ _ s
  case oraImm | oraZp | oraZpx | oraAbs | oraAbx | oraAby | oraIzx | oraIzy => exact accumulate_runs _ hora _ _ s
  case eorImm | eorZp | eorZpx | eorAbs | eorAbx | eorAby | eorIzx | eorIzy => exact accumulate_runs _ heor _ _ s
  case incZp | incZpx | incAbs | incAbx => exact modifyMem_runs _ hinc _ _ s
  case decZp | decZpx | decAbs | decAbx => exact modifyMem_runs _ hdec _ _ s
  case inx | iny => exact modifyReg_runs _ hinc _ _ s
  case dex | dey => exact modifyReg_runs _ hdec _ _ s
  case aslAcc => exact modifyReg_runs _ hasl _ _ s
  case aslZp | aslZpx | aslAbs | aslAbx => exact modifyMem_runs _ hasl _ _ s
  case lsrAcc => exact modifyReg_runs _ hlsr _ _ s
  case lsrZp | lsrZpx | lsrAbs | lsrAbx => exact modifyMem_runs _ hlsr _ _ s
  case rolAcc => exact modifyReg_runs _ hrol _ _ s
  case rolZp | rolZpx | rolAbs | rolAbx => exact modifyMem_runs _ hrol _ _ s
  case rorAcc => exact modifyReg_runs _ hror _ _ s
  case rorZp | rorZpx | rorAbs | rorAbx => exact modifyMem_runs _ hror _ _ s
  case cmpImm | cmpZp | cmpZpx | cmpAbs | cmpAbx | cmpAby | cmpIzx | cmpIzy | cpxImm | cpxZp | cpxAbs | cpyImm |
      cpyZp | cpyAbs => exact testReg_runs _ compareFlags_keeps _ _ _ s
  case bitZp | bitAbs => exact testReg_runs _ bitFlags_keeps _ _ _ s
  case bcc | bcs | beq | bmi | bne | bpl | bvc | bvs => exact branch_runs _ _ _ s

end Sys2Proof.Machine
end

