-- ==== Sys2Proof/Laws/Mapper.lean ====
section
/-! SUPPORT. Laws of the mapper's windows: what whole-bank remaps make of them, and that every register write and every
video read keeps each window in its segment and the variant's tag (51_cartridge_mapper R700, R712). -/

namespace Sys2Proof.Machine

/-! ## Whole remaps as equations -/

theorem setPrg_four (m : MapperState) (a b c d : Int) :
    (((m.setPrg 0 a).setPrg 1 b).setPrg 2 c).setPrg 3 d =
      { m with prg := #v[⟨.prgRom, a⟩, ⟨.prgRom, b⟩, ⟨.prgRom, c⟩, ⟨.prgRom, d⟩] } := by
  rcases m with ⟨v, p3, ⟨⟨l⟩, hl⟩, ch, mi⟩
  rcases l with _ | ⟨a, _ | ⟨b, _ | ⟨c, _ | ⟨d, _ | ⟨e, l⟩⟩⟩⟩⟩ <;> simp at hl
  rfl

theorem setPrg_two (m : MapperState) (a b : Int) :
    (m.setPrg 0 a).setPrg 1 b = { m with prg := #v[⟨.prgRom, a⟩, ⟨.prgRom, b⟩, m.prg[2], m.prg[3]] } := by
  rcases m with ⟨v, p3, ⟨⟨l⟩, hl⟩, ch, mi⟩
  rcases l with _ | ⟨a, _ | ⟨b, _ | ⟨c, _ | ⟨d, _ | ⟨e, l⟩⟩⟩⟩⟩ <;> simp at hl
  rfl

theorem setChr_eight (m : MapperState) (s : Segment) (a b c d e f g h : Int) :
    (((((((m.setChr s 0 a).setChr s 1 b).setChr s 2 c).setChr s 3 d).setChr s 4 e).setChr s 5 f).setChr s 6 g).setChr
        s 7 h =
      { m with chr := #v[⟨s, a⟩, ⟨s, b⟩, ⟨s, c⟩, ⟨s, d⟩, ⟨s, e⟩, ⟨s, f⟩, ⟨s, g⟩, ⟨s, h⟩] } := by
  rcases m with ⟨v, p3, p, ⟨⟨l⟩, hl⟩, mi⟩
  rcases l with _ | ⟨_, _ | ⟨_, _ | ⟨_, _ | ⟨_, _ | ⟨_, _ | ⟨_, _ | ⟨_, _ | ⟨_, _ | ⟨_, l⟩⟩⟩⟩⟩⟩⟩⟩⟩ <;> simp at hl
  rfl

theorem chr8_eq (m : MapperState) (c : Segment) (b : Int) :
    m.chr8 c b = { m with chr := Vector.ofFn (fun j => ⟨c, 8 * b + j.val⟩) } := by
  rw [MapperState.chr8, MapperState.chr4Low, MapperState.chr4High, setChr_eight]
  congr 1
  ext k hk; interval_cases k <;> simp <;> omega

theorem prg32_eq (m : MapperState) (b : Int) :
    m.prg32 b = { m with prg := Vector.ofFn (fun j => ⟨.prgRom, 4 * b + j.val⟩) } := by
  rw [MapperState.prg32, setPrg_four]
  congr 1
  ext k hk; interval_cases k <;> simp

/-! ## Every operation keeps the windows in their segments -/

/-- The windows are in the segments 51_cartridge_mapper R712 gives them, on a cartridge whose CHR segment is `c`. -/
structure WindowsIn (c : Segment) (m : MapperState) : Prop where
  prg3 : m.prg3 = ⟨.prgRam, 0⟩
  prg : ∀ k : Fin 4, (m.prg.get k).seg = .prgRom
  chr : ∀ k : Fin 8, (m.chr.get k).seg = c

theorem setPrg_windowsIn {c : Segment} {m : MapperState} (h : WindowsIn c m) (k : Fin 4) (i : Int) :
    WindowsIn c (m.setPrg k i) := by
  refine ⟨h.prg3, fun j => ?_, h.chr⟩
  have := h.prg j
  simp only [MapperState.setPrg, Vector.get_eq_getElem, Vector.getElem_set] at *
  split
  · rfl
  · exact this

theorem setChr_windowsIn {c : Segment} {m : MapperState} (h : WindowsIn c m) (k : Fin 8) (i : Int) :
    WindowsIn c (m.setChr c k i) := by
  refine ⟨h.prg3, h.prg, fun j => ?_⟩
  have := h.chr j
  simp only [MapperState.setChr, Vector.get_eq_getElem, Vector.getElem_set] at *
  split
  · rfl
  · exact this

theorem setMirroring_windowsIn {c : Segment} {m : MapperState} (h : WindowsIn c m) (l : Mirroring) :
    WindowsIn c (m.setMirroring l) := ⟨h.prg3, h.prg, h.chr⟩

theorem variant_windowsIn {c : Segment} {m : MapperState} (h : WindowsIn c m) (v : Variant) :
    WindowsIn c { m with variant := v } := ⟨h.prg3, h.prg, h.chr⟩

theorem prg16Low_windowsIn {c : Segment} {m : MapperState} (h : WindowsIn c m) (b : Int) :
    WindowsIn c (m.prg16Low b) := setPrg_windowsIn (setPrg_windowsIn h _ _) _ _

theorem prg16High_windowsIn {c : Segment} {m : MapperState} (h : WindowsIn c m) (b : Int) :
    WindowsIn c (m.prg16High b) := setPrg_windowsIn (setPrg_windowsIn h _ _) _ _

theorem prg32_windowsIn {c : Segment} {m : MapperState} (h : WindowsIn c m) (b : Int) : WindowsIn c (m.prg32 b) :=
  setPrg_windowsIn (setPrg_windowsIn (setPrg_windowsIn (setPrg_windowsIn h _ _) _ _) _ _) _ _

theorem chr4Low_windowsIn {c : Segment} {m : MapperState} (h : WindowsIn c m) (b : Int) :
    WindowsIn c (m.chr4Low c b) :=
  setChr_windowsIn (setChr_windowsIn (setChr_windowsIn (setChr_windowsIn h _ _) _ _) _ _) _ _

theorem chr4High_windowsIn {c : Segment} {m : MapperState} (h : WindowsIn c m) (b : Int) :
    WindowsIn c (m.chr4High c b) :=
  setChr_windowsIn (setChr_windowsIn (setChr_windowsIn (setChr_windowsIn h _ _) _ _) _ _) _ _

theorem chr8_windowsIn {c : Segment} {m : MapperState} (h : WindowsIn c m) (b : Int) : WindowsIn c (m.chr8 c b) :=
  chr4High_windowsIn (chr4Low_windowsIn h _) _

theorem chrPair_windowsIn {c : Segment} {m : MapperState} (h : WindowsIn c m) (k k' : Fin 8) (r : Byte) :
    WindowsIn c (m.chrPair c k k' r) := setChr_windowsIn (setChr_windowsIn h _ _) _ _

theorem mmc1Apply_windowsIn {c : Segment} {m : MapperState} (h : WindowsIn c m) (r : Mmc1) :
    WindowsIn c (mmc1Apply r c m) := by
  unfold mmc1Apply
  refine variant_windowsIn ?_ _
  have hm : ∀ l, WindowsIn c (m.setMirroring l) := fun l => setMirroring_windowsIn h l
  split
  · refine chr4High_windowsIn (chr4Low_windowsIn ?_ _) _
    split
    · exact prg32_windowsIn (hm _) _
    · exact prg32_windowsIn (hm _) _
    · exact prg16High_windowsIn (prg16Low_windowsIn (hm _) _) _
    · exact prg16High_windowsIn (prg16Low_windowsIn (hm _) _) _
  · refine chr8_windowsIn ?_ _
    split
    · exact prg32_windowsIn (hm _) _
    · exact prg32_windowsIn (hm _) _
    · exact prg16High_windowsIn (prg16Low_windowsIn (hm _) _) _
    · exact prg16High_windowsIn (prg16Low_windowsIn (hm _) _) _

theorem mmc3Apply_windowsIn {c : Segment} {m : MapperState} (h : WindowsIn c m) (r : Mmc3) :
    WindowsIn c (mmc3Apply r c m) := by
  unfold mmc3Apply
  refine variant_windowsIn ?_ _
  have four : ∀ i j k l, WindowsIn c ((((m.setPrg 0 i).setPrg 1 j).setPrg 2 k).setPrg 3 l) := fun i j k l =>
    setPrg_windowsIn (setPrg_windowsIn (setPrg_windowsIn (setPrg_windowsIn h _ _) _ _) _ _) _ _
  dsimp only
  split
  · refine chrPair_windowsIn (chrPair_windowsIn
      (setChr_windowsIn (setChr_windowsIn (setChr_windowsIn (setChr_windowsIn ?_ _ _) _ _) _ _) _ _) _ _ _) _ _ _
    split <;> exact four _ _ _ _
  · refine setChr_windowsIn (setChr_windowsIn (setChr_windowsIn (setChr_windowsIn
      (chrPair_windowsIn (chrPair_windowsIn ?_ _ _ _) _ _ _) _ _) _ _) _ _) _ _
    split <;> exact four _ _ _ _

/-- A register write keeps the windows in their segments (51_cartridge_mapper R712). -/
theorem write_windowsIn {c : Segment} {m : MapperState} (h : WindowsIn c m) (a : Word) (d : Byte) :
    WindowsIn c (m.write c a d) := by
  unfold MapperState.write
  split
  · exact h
  · unfold mmc1Write
    split_ifs
    · exact mmc1Apply_windowsIn h _
    · exact mmc1Apply_windowsIn h _
    · exact variant_windowsIn h _
  · exact prg16Low_windowsIn h _
  · exact chr8_windowsIn h _
  · unfold mmc3Write
    split
    · exact mmc3Apply_windowsIn h _
    · exact mmc3Apply_windowsIn h _
    · exact setMirroring_windowsIn h _
    · exact h
    all_goals exact variant_windowsIn h _
  · exact setMirroring_windowsIn (prg32_windowsIn h _) _

/-- The mapper reset sets every window in its segment (51_cartridge_mapper R714). -/
theorem mapperReset_windowsIn (v : Variant) (c : CartInfo) : WindowsIn c.chrSegment (mapperReset v c) := by
  unfold mapperReset MapperState.variantReset
  have h : WindowsIn c.chrSegment
      { variant := v, prg3 := ⟨.prgRam, 0⟩, prg := Vector.replicate 4 ⟨.prgRom, 0⟩,
        chr := Vector.replicate 8 ⟨c.chrSegment, 0⟩, mirroring := c.headerMirroring } := by
    refine ⟨rfl, fun k => ?_, fun k => ?_⟩ <;> simp [Vector.get_eq_getElem]
  have four : ∀ m, WindowsIn c.chrSegment m → ∀ i j k l,
      WindowsIn c.chrSegment ((((m.setPrg 0 i).setPrg 1 j).setPrg 2 k).setPrg 3 l) := fun m h i j k l =>
    setPrg_windowsIn (setPrg_windowsIn (setPrg_windowsIn (setPrg_windowsIn h _ _) _ _) _ _) _ _
  split
  · exact chr8_windowsIn (four _ h _ _ _ _) _
  · exact chr8_windowsIn (four _ h _ _ _ _) _
  · exact mmc1Apply_windowsIn h _
  · exact chr8_windowsIn (prg16High_windowsIn (prg16Low_windowsIn h _) _) _
  · exact mmc3Apply_windowsIn h _
  · exact setMirroring_windowsIn (chr8_windowsIn (prg32_windowsIn h _) _) _

/-! ## The variant -/

theorem mmc1Apply_variant (r : Mmc1) (c : Segment) (m : MapperState) : (mmc1Apply r c m).variant = .mmc1 r := rfl

theorem mmc3Apply_variant (r : Mmc3) (c : Segment) (m : MapperState) : (mmc3Apply r c m).variant = .mmc3 r := rfl

theorem chr8_variant (m : MapperState) (c : Segment) (b : Int) : (m.chr8 c b).variant = m.variant := by rw [chr8_eq]

theorem prg32_variant (m : MapperState) (b : Int) : (m.prg32 b).variant = m.variant := by rw [prg32_eq]

/-- A register write changes the variant's own state only: MMC1's, with 0 to 4 bits taken when there were, or MMC3's
(51_cartridge_mapper R700, R723, R744). -/
theorem write_variant (c : Segment) (a : Word) (d : Byte) (m : MapperState) :
    (m.write c a d).variant.number = m.variant.number ∧
      ((∀ r, m.variant = .mmc1 r → r.count ≤ 4) → ∀ r, (m.write c a d).variant = .mmc1 r → r.count ≤ 4) := by
  unfold MapperState.write
  split
  · rename_i e; exact ⟨rfl, fun h => h⟩
  · rename_i r0 e
    unfold mmc1Write
    split_ifs with h1 h2
    · refine ⟨by rw [e]; rfl, fun _ r hr => ?_⟩
      injection hr with hr; subst hr; exact Nat.zero_le 4
    · refine ⟨by rw [e]; rfl, fun _ r hr => ?_⟩
      injection hr with hr; subst hr; exact Nat.zero_le 4
    · refine ⟨by rw [e]; rfl, fun h r hr => ?_⟩
      injection hr with hr; subst hr
      have := h r0 e
      show r0.count + 1 ≤ 4
      omega
  · exact ⟨rfl, fun h => h⟩
  · rw [chr8_variant]; exact ⟨rfl, fun h => h⟩
  · rename_i r0 e
    have other : ∀ (v : Mmc3), ((Variant.mmc3 v).number = m.variant.number) ∧
        ((∀ r, m.variant = .mmc1 r → r.count ≤ 4) → ∀ r, Variant.mmc3 v = .mmc1 r → r.count ≤ 4) := fun v =>
      ⟨by rw [e]; rfl, fun _ r hr => by injection hr⟩
    unfold mmc3Write
    split
    · rw [mmc3Apply_variant]; exact other _
    · rw [mmc3Apply_variant]; exact other _
    · exact ⟨rfl, fun h => h⟩
    · exact ⟨rfl, fun h => h⟩
    all_goals exact other _
  · rw [axromWrite, MapperState.setMirroring, prg32_variant]
    exact ⟨rfl, fun h => h⟩

/-- The IRQ line of a mapper that is not MMC3 stays as it is (51_cartridge_mapper R750). -/
theorem lineAfterWrite_other (m : MapperState) (a : Word) (line : Bool) (h : m.variant.number ≠ 4) :
    m.lineAfterWrite a line = line := by
  unfold MapperState.lineAfterWrite
  split
  · rename_i r e; rw [e] at h; exact absurd rfl h
  · rfl

end Sys2Proof.Machine
end

