-- ==== Sys2Proof/Laws/PerInstr.lean ====
section
/-! SUPPORT. The per-instruction family `Encoding`: the opcode map gives back each instruction's kind and mode, and kind, mode
and operand give back the instruction (30_encoding R250, R253, R269). -/

namespace Sys2Proof.Laws.Encoding

open Sys2Proof.Machine (lo zext16)

/-- The opcode map reads the instruction's opcode as its kind and mode, and those with its operand field are it again. -/
def Statement (i : Instr) : Prop :=
  opcodeEntry i.opcode = (i.kind, i.mode) ∧ Instr.assemble i.kind i.mode i.operand = some i

/-- An operand byte survives its zero extension (30_encoding R253). -/
theorem lo_zext16 (b : Byte) : lo (zext16 b) = b := by
  apply BitVec.eq_of_toNat_eq
  simp only [lo, zext16, BitVec.extractLsb'_toNat, BitVec.toNat_setWidth, Nat.shiftRight_zero]
  omega

theorem adcImm (op : Byte) : Statement (.adcImm op) := ⟨(by decide : opcodeEntry 0x69 = (.adc, .imm)), congrArg (some ∘ Instr.adcImm) (lo_zext16 op)⟩
theorem adcZp (op : Byte) : Statement (.adcZp op) := ⟨(by decide : opcodeEntry 0x65 = (.adc, .zp)), congrArg (some ∘ Instr.adcZp) (lo_zext16 op)⟩
theorem adcZpx (op : Byte) : Statement (.adcZpx op) := ⟨(by decide : opcodeEntry 0x75 = (.adc, .zpx)), congrArg (some ∘ Instr.adcZpx) (lo_zext16 op)⟩
theorem adcAbs (op : Word) : Statement (.adcAbs op) := ⟨(by decide : opcodeEntry 0x6D = (.adc, .abs)), rfl⟩
theorem adcAbx (op : Word) : Statement (.adcAbx op) := ⟨(by decide : opcodeEntry 0x7D = (.adc, .abx)), rfl⟩
theorem adcAby (op : Word) : Statement (.adcAby op) := ⟨(by decide : opcodeEntry 0x79 = (.adc, .aby)), rfl⟩
theorem adcIzx (op : Byte) : Statement (.adcIzx op) := ⟨(by decide : opcodeEntry 0x61 = (.adc, .izx)), congrArg (some ∘ Instr.adcIzx) (lo_zext16 op)⟩
theorem adcIzy (op : Byte) : Statement (.adcIzy op) := ⟨(by decide : opcodeEntry 0x71 = (.adc, .izy)), congrArg (some ∘ Instr.adcIzy) (lo_zext16 op)⟩
theorem andImm (op : Byte) : Statement (.andImm op) := ⟨(by decide : opcodeEntry 0x29 = (.and, .imm)), congrArg (some ∘ Instr.andImm) (lo_zext16 op)⟩
theorem andZp (op : Byte) : Statement (.andZp op) := ⟨(by decide : opcodeEntry 0x25 = (.and, .zp)), congrArg (some ∘ Instr.andZp) (lo_zext16 op)⟩
theorem andZpx (op : Byte) : Statement (.andZpx op) := ⟨(by decide : opcodeEntry 0x35 = (.and, .zpx)), congrArg (some ∘ Instr.andZpx) (lo_zext16 op)⟩
theorem andAbs (op : Word) : Statement (.andAbs op) := ⟨(by decide : opcodeEntry 0x2D = (.and, .abs)), rfl⟩
theorem andAbx (op : Word) : Statement (.andAbx op) := ⟨(by decide : opcodeEntry 0x3D = (.and, .abx)), rfl⟩
theorem andAby (op : Word) : Statement (.andAby op) := ⟨(by decide : opcodeEntry 0x39 = (.and, .aby)), rfl⟩
theorem andIzx (op : Byte) : Statement (.andIzx op) := ⟨(by decide : opcodeEntry 0x21 = (.and, .izx)), congrArg (some ∘ Instr.andIzx) (lo_zext16 op)⟩
theorem andIzy (op : Byte) : Statement (.andIzy op) := ⟨(by decide : opcodeEntry 0x31 = (.and, .izy)), congrArg (some ∘ Instr.andIzy) (lo_zext16 op)⟩
theorem aslAcc : Statement .aslAcc := ⟨by decide, rfl⟩
theorem aslZp (op : Byte) : Statement (.aslZp op) := ⟨(by decide : opcodeEntry 0x06 = (.asl, .zp)), congrArg (some ∘ Instr.aslZp) (lo_zext16 op)⟩
theorem aslZpx (op : Byte) : Statement (.aslZpx op) := ⟨(by decide : opcodeEntry 0x16 = (.asl, .zpx)), congrArg (some ∘ Instr.aslZpx) (lo_zext16 op)⟩
theorem aslAbs (op : Word) : Statement (.aslAbs op) := ⟨(by decide : opcodeEntry 0x0E = (.asl, .abs)), rfl⟩
theorem aslAbx (op : Word) : Statement (.aslAbx op) := ⟨(by decide : opcodeEntry 0x1E = (.asl, .abx)), rfl⟩
theorem bcc (op : Byte) : Statement (.bcc op) := ⟨(by decide : opcodeEntry 0x90 = (.bcc, .rel)), congrArg (some ∘ Instr.bcc) (lo_zext16 op)⟩
theorem bcs (op : Byte) : Statement (.bcs op) := ⟨(by decide : opcodeEntry 0xB0 = (.bcs, .rel)), congrArg (some ∘ Instr.bcs) (lo_zext16 op)⟩
theorem beq (op : Byte) : Statement (.beq op) := ⟨(by decide : opcodeEntry 0xF0 = (.beq, .rel)), congrArg (some ∘ Instr.beq) (lo_zext16 op)⟩
theorem bitZp (op : Byte) : Statement (.bitZp op) := ⟨(by decide : opcodeEntry 0x24 = (.bit, .zp)), congrArg (some ∘ Instr.bitZp) (lo_zext16 op)⟩
theorem bitAbs (op : Word) : Statement (.bitAbs op) := ⟨(by decide : opcodeEntry 0x2C = (.bit, .abs)), rfl⟩
theorem bmi (op : Byte) : Statement (.bmi op) := ⟨(by decide : opcodeEntry 0x30 = (.bmi, .rel)), congrArg (some ∘ Instr.bmi) (lo_zext16 op)⟩
theorem bne (op : Byte) : Statement (.bne op) := ⟨(by decide : opcodeEntry 0xD0 = (.bne, .rel)), congrArg (some ∘ Instr.bne) (lo_zext16 op)⟩
theorem bpl (op : Byte) : Statement (.bpl op) := ⟨(by decide : opcodeEntry 0x10 = (.bpl, .rel)), congrArg (some ∘ Instr.bpl) (lo_zext16 op)⟩
theorem brk : Statement .brk := ⟨by decide, rfl⟩
theorem bvc (op : Byte) : Statement (.bvc op) := ⟨(by decide : opcodeEntry 0x50 = (.bvc, .rel)), congrArg (some ∘ Instr.bvc) (lo_zext16 op)⟩
theorem bvs (op : Byte) : Statement (.bvs op) := ⟨(by decide : opcodeEntry 0x70 = (.bvs, .rel)), congrArg (some ∘ Instr.bvs) (lo_zext16 op)⟩
theorem clc : Statement .clc := ⟨by decide, rfl⟩
theorem cld : Statement .cld := ⟨by decide, rfl⟩
theorem cli : Statement .cli := ⟨by decide, rfl⟩
theorem clv : Statement .clv := ⟨by decide, rfl⟩
theorem cmpImm (op : Byte) : Statement (.cmpImm op) := ⟨(by decide : opcodeEntry 0xC9 = (.cmp, .imm)), congrArg (some ∘ Instr.cmpImm) (lo_zext16 op)⟩
theorem cmpZp (op : Byte) : Statement (.cmpZp op) := ⟨(by decide : opcodeEntry 0xC5 = (.cmp, .zp)), congrArg (some ∘ Instr.cmpZp) (lo_zext16 op)⟩
theorem cmpZpx (op : Byte) : Statement (.cmpZpx op) := ⟨(by decide : opcodeEntry 0xD5 = (.cmp, .zpx)), congrArg (some ∘ Instr.cmpZpx) (lo_zext16 op)⟩
theorem cmpAbs (op : Word) : Statement (.cmpAbs op) := ⟨(by decide : opcodeEntry 0xCD = (.cmp, .abs)), rfl⟩
theorem cmpAbx (op : Word) : Statement (.cmpAbx op) := ⟨(by decide : opcodeEntry 0xDD = (.cmp, .abx)), rfl⟩
theorem cmpAby (op : Word) : Statement (.cmpAby op) := ⟨(by decide : opcodeEntry 0xD9 = (.cmp, .aby)), rfl⟩
theorem cmpIzx (op : Byte) : Statement (.cmpIzx op) := ⟨(by decide : opcodeEntry 0xC1 = (.cmp, .izx)), congrArg (some ∘ Instr.cmpIzx) (lo_zext16 op)⟩
theorem cmpIzy (op : Byte) : Statement (.cmpIzy op) := ⟨(by decide : opcodeEntry 0xD1 = (.cmp, .izy)), congrArg (some ∘ Instr.cmpIzy) (lo_zext16 op)⟩
theorem cpxImm (op : Byte) : Statement (.cpxImm op) := ⟨(by decide : opcodeEntry 0xE0 = (.cpx, .imm)), congrArg (some ∘ Instr.cpxImm) (lo_zext16 op)⟩
theorem cpxZp (op : Byte) : Statement (.cpxZp op) := ⟨(by decide : opcodeEntry 0xE4 = (.cpx, .zp)), congrArg (some ∘ Instr.cpxZp) (lo_zext16 op)⟩
theorem cpxAbs (op : Word) : Statement (.cpxAbs op) := ⟨(by decide : opcodeEntry 0xEC = (.cpx, .abs)), rfl⟩
theorem cpyImm (op : Byte) : Statement (.cpyImm op) := ⟨(by decide : opcodeEntry 0xC0 = (.cpy, .imm)), congrArg (some ∘ Instr.cpyImm) (lo_zext16 op)⟩
theorem cpyZp (op : Byte) : Statement (.cpyZp op) := ⟨(by decide : opcodeEntry 0xC4 = (.cpy, .zp)), congrArg (some ∘ Instr.cpyZp) (lo_zext16 op)⟩
theorem cpyAbs (op : Word) : Statement (.cpyAbs op) := ⟨(by decide : opcodeEntry 0xCC = (.cpy, .abs)), rfl⟩
theorem decZp (op : Byte) : Statement (.decZp op) := ⟨(by decide : opcodeEntry 0xC6 = (.dec, .zp)), congrArg (some ∘ Instr.decZp) (lo_zext16 op)⟩
theorem decZpx (op : Byte) : Statement (.decZpx op) := ⟨(by decide : opcodeEntry 0xD6 = (.dec, .zpx)), congrArg (some ∘ Instr.decZpx) (lo_zext16 op)⟩
theorem decAbs (op : Word) : Statement (.decAbs op) := ⟨(by decide : opcodeEntry 0xCE = (.dec, .abs)), rfl⟩
theorem decAbx (op : Word) : Statement (.decAbx op) := ⟨(by decide : opcodeEntry 0xDE = (.dec, .abx)), rfl⟩
theorem dex : Statement .dex := ⟨by decide, rfl⟩
theorem dey : Statement .dey := ⟨by decide, rfl⟩
theorem eorImm (op : Byte) : Statement (.eorImm op) := ⟨(by decide : opcodeEntry 0x49 = (.eor, .imm)), congrArg (some ∘ Instr.eorImm) (lo_zext16 op)⟩
theorem eorZp (op : Byte) : Statement (.eorZp op) := ⟨(by decide : opcodeEntry 0x45 = (.eor, .zp)), congrArg (some ∘ Instr.eorZp) (lo_zext16 op)⟩
theorem eorZpx (op : Byte) : Statement (.eorZpx op) := ⟨(by decide : opcodeEntry 0x55 = (.eor, .zpx)), congrArg (some ∘ Instr.eorZpx) (lo_zext16 op)⟩
theorem eorAbs (op : Word) : Statement (.eorAbs op) := ⟨(by decide : opcodeEntry 0x4D = (.eor, .abs)), rfl⟩
theorem eorAbx (op : Word) : Statement (.eorAbx op) := ⟨(by decide : opcodeEntry 0x5D = (.eor, .abx)), rfl⟩
theorem eorAby (op : Word) : Statement (.eorAby op) := ⟨(by decide : opcodeEntry 0x59 = (.eor, .aby)), rfl⟩
theorem eorIzx (op : Byte) : Statement (.eorIzx op) := ⟨(by decide : opcodeEntry 0x41 = (.eor, .izx)), congrArg (some ∘ Instr.eorIzx) (lo_zext16 op)⟩
theorem eorIzy (op : Byte) : Statement (.eorIzy op) := ⟨(by decide : opcodeEntry 0x51 = (.eor, .izy)), congrArg (some ∘ Instr.eorIzy) (lo_zext16 op)⟩
theorem incZp (op : Byte) : Statement (.incZp op) := ⟨(by decide : opcodeEntry 0xE6 = (.inc, .zp)), congrArg (some ∘ Instr.incZp) (lo_zext16 op)⟩
theorem incZpx (op : Byte) : Statement (.incZpx op) := ⟨(by decide : opcodeEntry 0xF6 = (.inc, .zpx)), congrArg (some ∘ Instr.incZpx) (lo_zext16 op)⟩
theorem incAbs (op : Word) : Statement (.incAbs op) := ⟨(by decide : opcodeEntry 0xEE = (.inc, .abs)), rfl⟩
theorem incAbx (op : Word) : Statement (.incAbx op) := ⟨(by decide : opcodeEntry 0xFE = (.inc, .abx)), rfl⟩
theorem inx : Statement .inx := ⟨by decide, rfl⟩
theorem iny : Statement .iny := ⟨by decide, rfl⟩
theorem jmpAbs (op : Word) : Statement (.jmpAbs op) := ⟨(by decide : opcodeEntry 0x4C = (.jmp, .abs)), rfl⟩
theorem jmpInd (op : Word) : Statement (.jmpInd op) := ⟨(by decide : opcodeEntry 0x6C = (.jmp, .ind)), rfl⟩
theorem jsr (op : Word) : Statement (.jsr op) := ⟨(by decide : opcodeEntry 0x20 = (.jsr, .abs)), rfl⟩
theorem ldaImm (op : Byte) : Statement (.ldaImm op) := ⟨(by decide : opcodeEntry 0xA9 = (.lda, .imm)), congrArg (some ∘ Instr.ldaImm) (lo_zext16 op)⟩
theorem ldaZp (op : Byte) : Statement (.ldaZp op) := ⟨(by decide : opcodeEntry 0xA5 = (.lda, .zp)), congrArg (some ∘ Instr.ldaZp) (lo_zext16 op)⟩
theorem ldaZpx (op : Byte) : Statement (.ldaZpx op) := ⟨(by decide : opcodeEntry 0xB5 = (.lda, .zpx)), congrArg (some ∘ Instr.ldaZpx) (lo_zext16 op)⟩
theorem ldaAbs (op : Word) : Statement (.ldaAbs op) := ⟨(by decide : opcodeEntry 0xAD = (.lda, .abs)), rfl⟩
theorem ldaAbx (op : Word) : Statement (.ldaAbx op) := ⟨(by decide : opcodeEntry 0xBD = (.lda, .abx)), rfl⟩
theorem ldaAby (op : Word) : Statement (.ldaAby op) := ⟨(by decide : opcodeEntry 0xB9 = (.lda, .aby)), rfl⟩
theorem ldaIzx (op : Byte) : Statement (.ldaIzx op) := ⟨(by decide : opcodeEntry 0xA1 = (.lda, .izx)), congrArg (some ∘ Instr.ldaIzx) (lo_zext16 op)⟩
theorem ldaIzy (op : Byte) : Statement (.ldaIzy op) := ⟨(by decide : opcodeEntry 0xB1 = (.lda, .izy)), congrArg (some ∘ Instr.ldaIzy) (lo_zext16 op)⟩
theorem ldxImm (op : Byte) : Statement (.ldxImm op) := ⟨(by decide : opcodeEntry 0xA2 = (.ldx, .imm)), congrArg (some ∘ Instr.ldxImm) (lo_zext16 op)⟩
theorem ldxZp (op : Byte) : Statement (.ldxZp op) := ⟨(by decide : opcodeEntry 0xA6 = (.ldx, .zp)), congrArg (some ∘ Instr.ldxZp) (lo_zext16 op)⟩
theorem ldxZpy (op : Byte) : Statement (.ldxZpy op) := ⟨(by decide : opcodeEntry 0xB6 = (.ldx, .zpy)), congrArg (some ∘ Instr.ldxZpy) (lo_zext16 op)⟩
theorem ldxAbs (op : Word) : Statement (.ldxAbs op) := ⟨(by decide : opcodeEntry 0xAE = (.ldx, .abs)), rfl⟩
theorem ldxAby (op : Word) : Statement (.ldxAby op) := ⟨(by decide : opcodeEntry 0xBE = (.ldx, .aby)), rfl⟩
theorem ldyImm (op : Byte) : Statement (.ldyImm op) := ⟨(by decide : opcodeEntry 0xA0 = (.ldy, .imm)), congrArg (some ∘ Instr.ldyImm) (lo_zext16 op)⟩
theorem ldyZp (op : Byte) : Statement (.ldyZp op) := ⟨(by decide : opcodeEntry 0xA4 = (.ldy, .zp)), congrArg (some ∘ Instr.ldyZp) (lo_zext16 op)⟩
theorem ldyZpx (op : Byte) : Statement (.ldyZpx op) := ⟨(by decide : opcodeEntry 0xB4 = (.ldy, .zpx)), congrArg (some ∘ Instr.ldyZpx) (lo_zext16 op)⟩
theorem ldyAbs (op : Word) : Statement (.ldyAbs op) := ⟨(by decide : opcodeEntry 0xAC = (.ldy, .abs)), rfl⟩
theorem ldyAbx (op : Word) : Statement (.ldyAbx op) := ⟨(by decide : opcodeEntry 0xBC = (.ldy, .abx)), rfl⟩
theorem lsrAcc : Statement .lsrAcc := ⟨by decide, rfl⟩
theorem lsrZp (op : Byte) : Statement (.lsrZp op) := ⟨(by decide : opcodeEntry 0x46 = (.lsr, .zp)), congrArg (some ∘ Instr.lsrZp) (lo_zext16 op)⟩
theorem lsrZpx (op : Byte) : Statement (.lsrZpx op) := ⟨(by decide : opcodeEntry 0x56 = (.lsr, .zpx)), congrArg (some ∘ Instr.lsrZpx) (lo_zext16 op)⟩
theorem lsrAbs (op : Word) : Statement (.lsrAbs op) := ⟨(by decide : opcodeEntry 0x4E = (.lsr, .abs)), rfl⟩
theorem lsrAbx (op : Word) : Statement (.lsrAbx op) := ⟨(by decide : opcodeEntry 0x5E = (.lsr, .abx)), rfl⟩
theorem nop : Statement .nop := ⟨by decide, rfl⟩
theorem oraImm (op : Byte) : Statement (.oraImm op) := ⟨(by decide : opcodeEntry 0x09 = (.ora, .imm)), congrArg (some ∘ Instr.oraImm) (lo_zext16 op)⟩
theorem oraZp (op : Byte) : Statement (.oraZp op) := ⟨(by decide : opcodeEntry 0x05 = (.ora, .zp)), congrArg (some ∘ Instr.oraZp) (lo_zext16 op)⟩
theorem oraZpx (op : Byte) : Statement (.oraZpx op) := ⟨(by decide : opcodeEntry 0x15 = (.ora, .zpx)), congrArg (some ∘ Instr.oraZpx) (lo_zext16 op)⟩
theorem oraAbs (op : Word) : Statement (.oraAbs op) := ⟨(by decide : opcodeEntry 0x0D = (.ora, .abs)), rfl⟩
theorem oraAbx (op : Word) : Statement (.oraAbx op) := ⟨(by decide : opcodeEntry 0x1D = (.ora, .abx)), rfl⟩
theorem oraAby (op : Word) : Statement (.oraAby op) := ⟨(by decide : opcodeEntry 0x19 = (.ora, .aby)), rfl⟩
theorem oraIzx (op : Byte) : Statement (.oraIzx op) := ⟨(by decide : opcodeEntry 0x01 = (.ora, .izx)), congrArg (some ∘ Instr.oraIzx) (lo_zext16 op)⟩
theorem oraIzy (op : Byte) : Statement (.oraIzy op) := ⟨(by decide : opcodeEntry 0x11 = (.ora, .izy)), congrArg (some ∘ Instr.oraIzy) (lo_zext16 op)⟩
theorem pha : Statement .pha := ⟨by decide, rfl⟩
theorem php : Statement .php := ⟨by decide, rfl⟩
theorem pla : Statement .pla := ⟨by decide, rfl⟩
theorem plp : Statement .plp := ⟨by decide, rfl⟩
theorem rolAcc : Statement .rolAcc := ⟨by decide, rfl⟩
theorem rolZp (op : Byte) : Statement (.rolZp op) := ⟨(by decide : opcodeEntry 0x26 = (.rol, .zp)), congrArg (some ∘ Instr.rolZp) (lo_zext16 op)⟩
theorem rolZpx (op : Byte) : Statement (.rolZpx op) := ⟨(by decide : opcodeEntry 0x36 = (.rol, .zpx)), congrArg (some ∘ Instr.rolZpx) (lo_zext16 op)⟩
theorem rolAbs (op : Word) : Statement (.rolAbs op) := ⟨(by decide : opcodeEntry 0x2E = (.rol, .abs)), rfl⟩
theorem rolAbx (op : Word) : Statement (.rolAbx op) := ⟨(by decide : opcodeEntry 0x3E = (.rol, .abx)), rfl⟩
theorem rorAcc : Statement .rorAcc := ⟨by decide, rfl⟩
theorem rorZp (op : Byte) : Statement (.rorZp op) := ⟨(by decide : opcodeEntry 0x66 = (.ror, .zp)), congrArg (some ∘ Instr.rorZp) (lo_zext16 op)⟩
theorem rorZpx (op : Byte) : Statement (.rorZpx op) := ⟨(by decide : opcodeEntry 0x76 = (.ror, .zpx)), congrArg (some ∘ Instr.rorZpx) (lo_zext16 op)⟩
theorem rorAbs (op : Word) : Statement (.rorAbs op) := ⟨(by decide : opcodeEntry 0x6E = (.ror, .abs)), rfl⟩
theorem rorAbx (op : Word) : Statement (.rorAbx op) := ⟨(by decide : opcodeEntry 0x7E = (.ror, .abx)), rfl⟩
theorem rti : Statement .rti := ⟨by decide, rfl⟩
theorem rts : Statement .rts := ⟨by decide, rfl⟩
theorem sbcImm (op : Byte) : Statement (.sbcImm op) := ⟨(by decide : opcodeEntry 0xE9 = (.sbc, .imm)), congrArg (some ∘ Instr.sbcImm) (lo_zext16 op)⟩
theorem sbcZp (op : Byte) : Statement (.sbcZp op) := ⟨(by decide : opcodeEntry 0xE5 = (.sbc, .zp)), congrArg (some ∘ Instr.sbcZp) (lo_zext16 op)⟩
theorem sbcZpx (op : Byte) : Statement (.sbcZpx op) := ⟨(by decide : opcodeEntry 0xF5 = (.sbc, .zpx)), congrArg (some ∘ Instr.sbcZpx) (lo_zext16 op)⟩
theorem sbcAbs (op : Word) : Statement (.sbcAbs op) := ⟨(by decide : opcodeEntry 0xED = (.sbc, .abs)), rfl⟩
theorem sbcAbx (op : Word) : Statement (.sbcAbx op) := ⟨(by decide : opcodeEntry 0xFD = (.sbc, .abx)), rfl⟩
theorem sbcAby (op : Word) : Statement (.sbcAby op) := ⟨(by decide : opcodeEntry 0xF9 = (.sbc, .aby)), rfl⟩
theorem sbcIzx (op : Byte) : Statement (.sbcIzx op) := ⟨(by decide : opcodeEntry 0xE1 = (.sbc, .izx)), congrArg (some ∘ Instr.sbcIzx) (lo_zext16 op)⟩
theorem sbcIzy (op : Byte) : Statement (.sbcIzy op) := ⟨(by decide : opcodeEntry 0xF1 = (.sbc, .izy)), congrArg (some ∘ Instr.sbcIzy) (lo_zext16 op)⟩
theorem sec : Statement .sec := ⟨by decide, rfl⟩
theorem sed : Statement .sed := ⟨by decide, rfl⟩
theorem sei : Statement .sei := ⟨by decide, rfl⟩
theorem staZp (op : Byte) : Statement (.staZp op) := ⟨(by decide : opcodeEntry 0x85 = (.sta, .zp)), congrArg (some ∘ Instr.staZp) (lo_zext16 op)⟩
theorem staZpx (op : Byte) : Statement (.staZpx op) := ⟨(by decide : opcodeEntry 0x95 = (.sta, .zpx)), congrArg (some ∘ Instr.staZpx) (lo_zext16 op)⟩
theorem staAbs (op : Word) : Statement (.staAbs op) := ⟨(by decide : opcodeEntry 0x8D = (.sta, .abs)), rfl⟩
theorem staAbx (op : Word) : Statement (.staAbx op) := ⟨(by decide : opcodeEntry 0x9D = (.sta, .abx)), rfl⟩
theorem staAby (op : Word) : Statement (.staAby op) := ⟨(by decide : opcodeEntry 0x99 = (.sta, .aby)), rfl⟩
theorem staIzx (op : Byte) : Statement (.staIzx op) := ⟨(by decide : opcodeEntry 0x81 = (.sta, .izx)), congrArg (some ∘ Instr.staIzx) (lo_zext16 op)⟩
theorem staIzy (op : Byte) : Statement (.staIzy op) := ⟨(by decide : opcodeEntry 0x91 = (.sta, .izy)), congrArg (some ∘ Instr.staIzy) (lo_zext16 op)⟩
theorem stxZp (op : Byte) : Statement (.stxZp op) := ⟨(by decide : opcodeEntry 0x86 = (.stx, .zp)), congrArg (some ∘ Instr.stxZp) (lo_zext16 op)⟩
theorem stxZpy (op : Byte) : Statement (.stxZpy op) := ⟨(by decide : opcodeEntry 0x96 = (.stx, .zpy)), congrArg (some ∘ Instr.stxZpy) (lo_zext16 op)⟩
theorem stxAbs (op : Word) : Statement (.stxAbs op) := ⟨(by decide : opcodeEntry 0x8E = (.stx, .abs)), rfl⟩
theorem styZp (op : Byte) : Statement (.styZp op) := ⟨(by decide : opcodeEntry 0x84 = (.sty, .zp)), congrArg (some ∘ Instr.styZp) (lo_zext16 op)⟩
theorem styZpx (op : Byte) : Statement (.styZpx op) := ⟨(by decide : opcodeEntry 0x94 = (.sty, .zpx)), congrArg (some ∘ Instr.styZpx) (lo_zext16 op)⟩
theorem styAbs (op : Word) : Statement (.styAbs op) := ⟨(by decide : opcodeEntry 0x8C = (.sty, .abs)), rfl⟩
theorem tax : Statement .tax := ⟨by decide, rfl⟩
theorem tay : Statement .tay := ⟨by decide, rfl⟩
theorem tsx : Statement .tsx := ⟨by decide, rfl⟩
theorem txa : Statement .txa := ⟨by decide, rfl⟩
theorem txs : Statement .txs := ⟨by decide, rfl⟩
theorem tya : Statement .tya := ⟨by decide, rfl⟩

end Sys2Proof.Laws.Encoding
end

