-- ==== Sys2Proof/Laws/Ppu.lean ====
section
/-! SUPPORT. What the dot clock can change (50_ppu R640), once for every action of a dot, and what it does to the counters,
the vertical-blank flag and the frame buffer. -/

namespace Sys2Proof.Machine

/-- Of MMC3's registers only the counter, the reload flag and the last A12 differ (51_cartridge_mapper R741, R742). -/
def CounterOnly (v w : Variant) : Prop :=
  ∀ r, v = .mmc3 r → ∃ c l a, w = .mmc3 { r with irqCounter := c, irqReload := l, lastA12 := a }

theorem CounterOnly.refl (v : Variant) : CounterOnly v v :=
  fun r h => ⟨r.irqCounter, r.irqReload, r.lastA12, h⟩

theorem CounterOnly.trans {v w u : Variant} (h : CounterOnly v w) (k : CounterOnly w u) : CounterOnly v u := by
  intro r e
  obtain ⟨_, _, _, e⟩ := h r e
  obtain ⟨c, l, a, e⟩ := k _ e
  exact ⟨c, l, a, e⟩

theorem Mmc3.observe_counterOnly (r : Mmc3) (a12 : Bool) : CounterOnly (.mmc3 r) (.mmc3 (r.observe a12)) := by
  intro q h
  cases h
  refine ⟨(r.observe a12).irqCounter, (r.observe a12).irqReload, (r.observe a12).lastA12, ?_⟩
  simp only [Mmc3.observe, Mmc3.clock]
  split
  · split <;> rfl
  · rfl

/-- What no dot changes (50_ppu R640). -/
structure OnlyDrawn (s t : State) : Prop where
  rest : t = { s with
    frame := t.frame, ppu := t.ppu, nmiLine := t.nmiLine, irqLine := t.irqLine, map := t.map, host := t.host }
  ctrl : t.ppu.ctrl = s.ppu.ctrl
  mask : t.ppu.mask = s.ppu.mask
  oamAddr : t.ppu.oamAddr = s.ppu.oamAddr
  tReg : t.ppu.t = s.ppu.t
  xReg : t.ppu.x = s.ppu.x
  wReg : t.ppu.w = s.ppu.w
  readBuffer : t.ppu.readBuffer = s.ppu.readBuffer
  map : t.map = { s.map with variant := t.map.variant }
  number : t.map.variant.number = s.map.variant.number
  counter : CounterOnly s.map.variant t.map.variant
  other : s.map.variant.number ≠ 4 → t.map = s.map ∧ t.irqLine = s.irqLine
  host : t.host = { s.host with out := t.host.out }
  nmi : s.nmiLine = true → t.nmiLine = true

theorem OnlyDrawn.refl (s : State) : OnlyDrawn s s := by
  constructor <;> first | rfl | exact CounterOnly.refl _ | exact fun h => h | exact fun _ => ⟨rfl, rfl⟩

theorem OnlyDrawn.trans {s t u : State} (h : OnlyDrawn s t) (k : OnlyDrawn t u) : OnlyDrawn s u where
  rest := by rw [k.rest, h.rest]
  ctrl := k.ctrl.trans h.ctrl
  mask := k.mask.trans h.mask
  oamAddr := k.oamAddr.trans h.oamAddr
  tReg := k.tReg.trans h.tReg
  xReg := k.xReg.trans h.xReg
  wReg := k.wReg.trans h.wReg
  readBuffer := k.readBuffer.trans h.readBuffer
  map := by rw [k.map, h.map]
  number := k.number.trans h.number
  counter := h.counter.trans k.counter
  other := fun n => by
    have a := h.other n
    have b := k.other (by rw [h.number]; exact n)
    exact ⟨b.1.trans a.1, b.2.trans a.2⟩
  host := by rw [k.host, h.host]
  nmi := fun n => k.nmi (h.nmi n)

/-- A change of the fetch registers, v, the counters or the flag is one a dot may make. -/
theorem OnlyDrawn.setPpu (s : State) (q : Ppu) (hc : q.ctrl = s.ppu.ctrl) (hm : q.mask = s.ppu.mask)
    (ho : q.oamAddr = s.ppu.oamAddr) (ht : q.t = s.ppu.t) (hx : q.x = s.ppu.x) (hw : q.w = s.ppu.w)
    (hr : q.readBuffer = s.ppu.readBuffer) : OnlyDrawn s (s.setPpu q) := by
  constructor <;>
    first | assumption | rfl | exact CounterOnly.refl _ | exact fun h => h | exact fun _ => ⟨rfl, rfl⟩

theorem pixel_onlyDrawn (L D : Nat) (s : State) : OnlyDrawn s (pixel L D s) := by
  constructor <;> first | rfl | exact CounterOnly.refl _ | exact fun h => h | exact fun _ => ⟨rfl, rfl⟩

/-- The mapper's monitor changes MMC3's state and the IRQ line only. -/
theorem mapperVideoRead_eq (a : VAddr) (s : State) :
    mapperVideoRead a s = { s with irqLine := (mapperVideoRead a s).irqLine, map := (mapperVideoRead a s).map } := by
  rw [mapperVideoRead]; split <;> rfl

theorem mapperVideoRead_ppu (a : VAddr) (s : State) : (mapperVideoRead a s).ppu = s.ppu := by
  rw [mapperVideoRead_eq]

theorem mapperVideoRead_onlyDrawn (a : VAddr) (s : State) : OnlyDrawn s (mapperVideoRead a s) := by
  rw [mapperVideoRead]
  split
  · rename_i r h
    constructor <;> first | rfl | exact fun h => h | skip
    · rw [h]; rfl
    · rw [h]; exact Mmc3.observe_counterOnly r _
    · intro n; rw [h] at n; exact absurd rfl n
  · exact OnlyDrawn.refl s

theorem backgroundFetch_onlyDrawn (f : Nat) (s : State) : OnlyDrawn s (backgroundFetch f s) := by
  unfold backgroundFetch
  split
  · exact OnlyDrawn.setPpu s _ rfl rfl rfl rfl rfl rfl rfl
  · exact OnlyDrawn.setPpu s _ rfl rfl rfl rfl rfl rfl rfl
  · refine OnlyDrawn.trans ?_ (mapperVideoRead_onlyDrawn _ _)
    exact OnlyDrawn.setPpu s _ rfl rfl rfl rfl rfl rfl rfl
  · have fetched : OnlyDrawn s (s.setPpu { s.ppu with ptHiLatch := vRead s (s.ppu.ptAddr + 8) }) :=
      OnlyDrawn.setPpu s _ rfl rfl rfl rfl rfl rfl rfl
    refine (fetched.trans (mapperVideoRead_onlyDrawn (s.ppu.ptAddr + 8) _)).trans ?_
    exact OnlyDrawn.setPpu _ _ rfl rfl rfl rfl rfl rfl rfl
  · exact OnlyDrawn.refl s

theorem fetchDot_onlyDrawn (D : Nat) (s : State) : OnlyDrawn s (fetchDot D s) := by
  rw [fetchDot]
  split
  · refine OnlyDrawn.trans ?_ (backgroundFetch_onlyDrawn _ _)
    exact OnlyDrawn.setPpu s _ rfl rfl rfl rfl rfl rfl rfl
  · exact OnlyDrawn.refl s

theorem scrollDot_onlyDrawn (D : Nat) (s : State) : OnlyDrawn s (scrollDot D s) := by
  rw [scrollDot]
  split
  · exact OnlyDrawn.setPpu s _ rfl rfl rfl rfl rfl rfl rfl
  · split
    · exact OnlyDrawn.setPpu s _ rfl rfl rfl rfl rfl rfl rfl
    · exact OnlyDrawn.refl s

theorem spriteDot_onlyDrawn (D : Nat) (s : State) : OnlyDrawn s (spriteDot D s) := by
  rw [spriteDot]
  split
  · exact mapperVideoRead_onlyDrawn _ _
  · split
    · exact mapperVideoRead_onlyDrawn _ _
    · exact OnlyDrawn.refl s

theorem verticalCopyDot_onlyDrawn (L D : Nat) (s : State) : OnlyDrawn s (verticalCopyDot L D s) := by
  rw [verticalCopyDot]
  split
  · exact OnlyDrawn.setPpu s _ rfl rfl rfl rfl rfl rfl rfl
  · exact OnlyDrawn.refl s

theorem renderDot_onlyDrawn (L D : Nat) (s : State) : OnlyDrawn s (renderDot L D s) :=
  ((((fetchDot_onlyDrawn D s).trans (scrollDot_onlyDrawn D _)).trans (spriteDot_onlyDrawn D _))).trans
    (verticalCopyDot_onlyDrawn L D _)

theorem flagDot_onlyDrawn (L D : Nat) (s : State) : OnlyDrawn s (flagDot L D s) := by
  rw [flagDot]
  split
  · exact OnlyDrawn.refl s
  · split
    · constructor <;> first | rfl | exact CounterOnly.refl _ | exact fun _ => ⟨rfl, rfl⟩ | skip
      intro h
      show (s.nmiLine || _) = true
      rw [h, Bool.true_or]
    · split
      · exact OnlyDrawn.setPpu s _ rfl rfl rfl rfl rfl rfl rfl
      · exact OnlyDrawn.refl s

theorem dotActions_onlyDrawn (L D : Nat) (s : State) : OnlyDrawn s (dotActions L D s) := by
  rw [dotActions]
  have drawn : OnlyDrawn s (if L < 240 ∧ 1 ≤ D ∧ D ≤ 256 then pixel L D s else s) := by
    split
    · exact pixel_onlyDrawn L D s
    · exact OnlyDrawn.refl s
  refine OnlyDrawn.trans ?_ (flagDot_onlyDrawn L D _)
  split
  · exact drawn.trans (renderDot_onlyDrawn L D _)
  · exact drawn

theorem dot_onlyDrawn (s : State) : OnlyDrawn s (dot s) := by
  refine (dotActions_onlyDrawn s.ppu.line s.ppu.dot s).trans (OnlyDrawn.setPpu _ _ ?_ ?_ ?_ ?_ ?_ ?_ ?_) <;>
    (rw [Ppu.advanced]; split <;> rfl)

theorem tick_onlyDrawn (n : Nat) (s : State) : OnlyDrawn s (tick n s) := by
  induction n generalizing s with
  | zero => exact OnlyDrawn.refl s
  | succ n ih => exact (dot_onlyDrawn s).trans (ih _)

/-- A tick of n + 1 dots is a tick of n dots and one dot more. -/
theorem tick_succ (n : Nat) (s : State) : tick (n + 1) s = dot (tick n s) := by
  induction n generalizing s with
  | zero => rfl
  | succ n ih => rw [tick, ih, tick]

/-! ## The counters, the vertical-blank flag, the NMI line and the host's side -/

/-- What a dot does besides the flag events keeps the counters, the flag, the NMI line and the host's side. -/
structure Quiet (s t : State) : Prop where
  line : t.ppu.line = s.ppu.line
  dot : t.ppu.dot = s.ppu.dot
  vblank : t.ppu.vblank = s.ppu.vblank
  nmi : t.nmiLine = s.nmiLine
  host : t.host = s.host

theorem Quiet.refl (s : State) : Quiet s s := ⟨rfl, rfl, rfl, rfl, rfl⟩

theorem Quiet.trans {s t u : State} (h : Quiet s t) (k : Quiet t u) : Quiet s u :=
  ⟨k.line.trans h.line, k.dot.trans h.dot, k.vblank.trans h.vblank, k.nmi.trans h.nmi, k.host.trans h.host⟩

theorem mapperVideoRead_quiet (a : VAddr) (s : State) : Quiet s (mapperVideoRead a s) := by
  rw [mapperVideoRead_eq]; exact ⟨rfl, rfl, rfl, rfl, rfl⟩

theorem Quiet.setPpu (s : State) (q : Ppu) (hl : q.line = s.ppu.line) (hd : q.dot = s.ppu.dot)
    (hv : q.vblank = s.ppu.vblank) : Quiet s (s.setPpu q) := ⟨hl, hd, hv, rfl, rfl⟩

theorem backgroundFetch_quiet (f : Nat) (s : State) : Quiet s (backgroundFetch f s) := by
  unfold backgroundFetch
  split
  · exact Quiet.setPpu _ _ rfl rfl rfl
  · exact Quiet.setPpu _ _ rfl rfl rfl
  · refine Quiet.trans ?_ (mapperVideoRead_quiet _ _)
    exact Quiet.setPpu _ _ rfl rfl rfl
  · have fetched : Quiet s (s.setPpu { s.ppu with ptHiLatch := vRead s (s.ppu.ptAddr + 8) }) :=
      Quiet.setPpu s _ rfl rfl rfl
    refine (fetched.trans (mapperVideoRead_quiet (s.ppu.ptAddr + 8) _)).trans ?_
    exact Quiet.setPpu _ _ rfl rfl rfl
  · exact Quiet.refl _

theorem fetchDot_quiet (D : Nat) (s : State) : Quiet s (fetchDot D s) := by
  rw [fetchDot]
  split
  · have shift : Quiet s (s.setPpu s.ppu.shifted) := Quiet.setPpu s _ rfl rfl rfl
    exact shift.trans (backgroundFetch_quiet _ _)
  · exact Quiet.refl s

theorem renderDot_quiet (L D : Nat) (s : State) : Quiet s (renderDot L D s) := by
  have hs : ∀ u, Quiet u (scrollDot D u) := fun u => by
    rw [scrollDot]; split_ifs <;> exact Quiet.setPpu _ _ rfl rfl rfl
  have hp : ∀ u, Quiet u (spriteDot D u) := fun u => by
    rw [spriteDot]; split_ifs <;> first | exact mapperVideoRead_quiet _ _ | exact Quiet.refl _
  have hv : ∀ u, Quiet u (verticalCopyDot L D u) := fun u => by
    rw [verticalCopyDot]; split_ifs <;> exact Quiet.setPpu _ _ rfl rfl rfl
  exact (((fetchDot_quiet D s).trans (hs _)).trans (hp _)).trans (hv _)

/-- The actions of a dot: quiet work, then the flag events. -/
theorem dotActions_eq (L D : Nat) (s : State) : ∃ t, Quiet s t ∧ OnlyDrawn s t ∧ dotActions L D s = flagDot L D t := by
  rw [dotActions]
  have drawn : Quiet s (if L < 240 ∧ 1 ≤ D ∧ D ≤ 256 then pixel L D s else s) ∧
      OnlyDrawn s (if L < 240 ∧ 1 ≤ D ∧ D ≤ 256 then pixel L D s else s) := by
    split
    · exact ⟨⟨rfl, rfl, rfl, rfl, rfl⟩, pixel_onlyDrawn L D s⟩
    · exact ⟨Quiet.refl s, OnlyDrawn.refl s⟩
  refine ⟨_, ?_, ?_, rfl⟩
  · split
    · exact drawn.1.trans (renderDot_quiet L D _)
    · exact drawn.1
  · split
    · exact drawn.2.trans (renderDot_onlyDrawn L D _)
    · exact drawn.2

end Sys2Proof.Machine
end

