-- ==== Sys2Proof/Laws/Run.lean ====
section
/-! SUPPORT. Everything a step can do, said once: the inversion of a CPU step and of a round, and a step as a sequence of
changes, so that what each change keeps every step keeps. -/

namespace Sys2Proof.Machine

/-! ## Inversion -/

/-- What a fetch gives and leaves (31_decode_cache_and_run R303): only the cache and the cursor differ. -/
theorem fetch_state {s : State} {f : FetchOut} (h : fetch s = .ok f) :
    f.state = { s with cache := f.state.cache, cur := f.state.cur } := by
  unfold fetch at h
  split at h
  · injection h with h; subst h; rfl
  · split at h
    · simp at h
    · rename_i t u e
      injection h with h
      subst h
      unfold traceAtPc at e
      split at e
      · injection e with e; injection e with e1 e2; subst e2; rfl
      · split at e
        · simp at e
        · injection e with e; injection e with e1 e2; subst e2; rfl

/-- A CPU step that goes on is an interrupt entry, or one instruction of the table (31_decode_cache_and_run R302). -/
theorem cpuStep_cases {s t : State} (h : cpuStep s = .next t) :
    (interruptPending s = true ∧ t = enterInterrupt s) ∨
      (interruptPending s = false ∧ ∃ f i u, fetch s = .ok f ∧ f.op.kind ≠ .undefined ∧ f.op.instr = some i ∧
        exec i f.state = .next u ∧ t = u.setCur (cursorAfter f.op u.cur)) := by
  unfold cpuStep at h
  split at h
  · rename_i p
    injection h with h
    exact .inl ⟨p, h.symm⟩
  · rename_i p
    split at h
    · simp at h
    · rename_i f e
      refine .inr ⟨by simpa using p, f, ?_⟩
      unfold execute at h
      split at h
      · simp [settle] at h
      · rename_i k
        split at h
        · simp [settle] at h
        · rename_i i hi
          cases he : exec i f.state with
          | next u =>
            rw [he] at h
            simp only [settle] at h
            injection h with h
            exact ⟨i, u, e, k, hi, he, h.symm⟩
          | fault x => rw [he] at h; simp [settle] at h
          | refused x => rw [he] at h; simp [settle] at h

/-- A round that goes on is one CPU step, with the end of the batch if its cycles are used up, or that end alone
(31_decode_cache_and_run R300). -/
theorem runRound_cases {n : Nat} {s t : State} (h : runRound n s = .next t) :
    (s.cycles < n ∧ ∃ u, cpuStep s = .next u ∧ t = closeRun n u) ∨ (¬ s.cycles < n ∧ t = endRun s) := by
  unfold runRound at h
  split at h
  · rename_i l
    split at h
    · rename_i u e; injection h with h; exact .inl ⟨l, u, e, h.symm⟩
    · simp at h
    · simp at h
  · rename_i l
    injection h with h
    exact .inr ⟨l, h.symm⟩

/-! ## A step as a sequence of changes -/

/-- The changes a step is made of. -/
inductive Change (s : State) : State → Prop where
  | move (t : State) (h : Move s t) : Change s t
  | nmi : Change s (s.setNmiLine false)
  | cache (c : List (Word × Trace)) : Change s (s.setCache c)
  | cur (c : Option (Word × Nat)) : Change s (s.setCur c)
  | host (h : HostPort) : Change s (s.setHost h)
  | input (b : Byte) : Change s (s.setPad { s.pad with input := b })
  | regRead (r : PpuReg) : Change s (ppuRegRead r s).state
  | regWrite (r : PpuReg) (d : Byte) : Change s (ppuRegWrite r d s)
  | dot : Change s (dot s)

/-- Any number of changes, one after another. -/
inductive Changes : State → State → Prop where
  | refl (s : State) : Changes s s
  | tail {s t u : State} (h : Changes s t) (m : Change t u) : Changes s u

theorem Changes.one {s t : State} (m : Change s t) : Changes s t := .tail (.refl s) m

theorem Changes.trans {s t u : State} (h : Changes s t) (k : Changes t u) : Changes s u := by
  induction k with
  | refl => exact h
  | tail _ m ih => exact ih.tail m

/-- What every change keeps, changes keep. -/
theorem Changes.keeps {P : State → Prop} (step : ∀ s t, Change s t → P s → P t) {s t : State} (h : Changes s t)
    (p : P s) : P t := by
  induction h with
  | refl => exact p
  | tail _ m ih => exact step _ _ m ih

theorem Moves.changes {s t : State} (h : Moves s t) : Changes s t := by
  induction h with
  | refl => exact .refl _
  | tail _ m ih => exact ih.tail (.move _ m)

theorem enterInterrupt_changes (s : State) : Changes s (enterInterrupt s) := by
  rw [enterInterrupt]
  refine Changes.tail ?_ (.move _ (.cycles _))
  split
  · exact ((Changes.one .nmi).trans (takeException_moves _ _ _ _).changes).tail (.cur _)
  · exact (takeException_moves _ _ _ _).changes.tail (.cur _)

theorem fetch_changes {s : State} {f : FetchOut} (h : fetch s = .ok f) : Changes s f.state := by
  rw [fetch_state h]
  exact (Changes.one (.cache f.state.cache)).tail (.cur f.state.cur)

theorem cpuStep_changes {s t : State} (h : cpuStep s = .next t) : Changes s t := by
  rcases cpuStep_cases h with ⟨_, e⟩ | ⟨_, f, i, u, hf, _, _, hx, e⟩
  · rw [e]; exact enterInterrupt_changes s
  · obtain ⟨v, hv, r⟩ := exec_runs i f.state
    rw [hx] at hv
    injection hv with hv
    subst hv
    rw [e]
    exact ((fetch_changes hf).trans r.moves.changes).tail (.cur _)

theorem tick_changes (n : Nat) (s : State) : Changes s (tick n s) := by
  induction n generalizing s with
  | zero => exact .refl s
  | succ n ih => exact (Changes.one .dot).trans (ih _)

theorem endRun_changes (s : State) : Changes s (endRun s) :=
  ((Changes.one (.host _)).trans (tick_changes _ _)).tail (.host _)

theorem runRound_changes {n : Nat} {s t : State} (h : runRound n s = .next t) : Changes s t := by
  rcases runRound_cases h with ⟨_, u, hu, e⟩ | ⟨_, e⟩
  · rw [e, closeRun]
    split
    · exact cpuStep_changes hu
    · exact (cpuStep_changes hu).trans (endRun_changes u)
  · rw [e]; exact endRun_changes s

theorem startRun_changes (n : Nat) (s : State) : Changes s (startRun n s) :=
  ((Changes.one (.move _ (.cycles 0))).tail (.cur none)).tail (.host _)

theorem nextCall_changes (s : State) : Changes s (nextCall s).2 := by
  unfold nextCall
  split
  · exact .refl s
  · exact .one (.host _)

theorem serve_changes {c : HostCall} {s t : State} (h : serve c s = .next t) : Changes s t := by
  cases c with
  | runCycles n => exact (startRun_changes _ s).trans (runRound_changes h)
  | regRead r => injection h with h; subst h; exact (Changes.one (.regRead _)).tail (.host _)
  | regWrite r v => injection h with h; subst h; exact .one (.regWrite _ _)
  | setInput b => injection h with h; subst h; exact .one (.input b)
  | syncSave =>
    injection h with h
    subst h
    rw [hostSyncSave]
    split
    · exact .refl s
    · exact .one (.host _)
  | destroy => injection h with h; subst h; exact .one (.host _)

/-- Everything a step can do. -/
theorem step_changes {s t : State} (h : step s = .next t) : Changes s t := by
  unfold step stepMachine at h
  split at h
  · simp at h
  · split at h
    · exact runRound_changes h
    · exact (nextCall_changes s).trans (serve_changes h)

end Sys2Proof.Machine
end

