-- ==== Sys2Proof/Laws/Stores.lean ====
section
/-! SUPPORT. Every change of a memory, by a CPU write or by a dot, is a store of one byte at an address inside it, six bits
wide in the palette and the frame buffer (10_state R59); so what such a store keeps, every operation keeps. -/

namespace Sys2Proof.Machine

/-- No memory differs, nor the header that gives the ROMs their sizes. -/
structure SameMemories (s t : State) : Prop where
  ram : t.ram = s.ram
  prgRom : t.prgRom = s.prgRom
  prgRam : t.prgRam = s.prgRam
  chrRom : t.chrRom = s.chrRom
  chrRam : t.chrRam = s.chrRam
  ciram : t.ciram = s.ciram
  palette : t.palette = s.palette
  oam : t.oam = s.oam
  frame : t.frame = s.frame
  cart : t.cart = s.cart

/-- One store in a memory, or a change of no memory. -/
inductive Store (s : State) : State → Prop where
  | same (t : State) (h : SameMemories s t) : Store s t
  | ram (a : Nat) (d : Byte) (h : a < 2048) : Store s (s.setRam (s.ram.write a d))
  | prgRam (a : Nat) (d : Byte) (h : a < 8192) : Store s (s.setPrgRam (s.prgRam.write a d))
  | chrRam (a : Nat) (d : Byte) (h : a < 8192) : Store s (s.setChrRam (s.chrRam.write a d))
  | ciram (a : Nat) (d : Byte) (h : a < 2048) : Store s (s.setCiram (s.ciram.write a d))
  | palette (a : Nat) (d : Byte) (h : a < 32) (hd : d.toNat < 64) : Store s (s.setPalette (s.palette.write a d))
  | oam (a : Nat) (d : Byte) (h : a < 256) : Store s (s.setOam (s.oam.write a d))
  | frame (a : Nat) (d : Byte) (h : a < 61440) (hd : d.toNat < 64) : Store s (s.setFrame (s.frame.write a d))

/-- Any number of stores, one after another. -/
inductive Stores : State → State → Prop where
  | refl (s : State) : Stores s s
  | tail {s t u : State} (h : Stores s t) (m : Store t u) : Stores s u

theorem Stores.one {s t : State} (m : Store s t) : Stores s t := .tail (.refl s) m

theorem Stores.same {s t : State} (h : SameMemories s t) : Stores s t := .one (.same t h)

theorem Stores.trans {s t u : State} (h : Stores s t) (k : Stores t u) : Stores s u := by
  induction k with
  | refl => exact h
  | tail _ m ih => exact ih.tail m

/-- What one store keeps, stores keep. -/
theorem Stores.keeps {P : State → Prop} (step : ∀ s t, Store s t → P s → P t) {s t : State} (h : Stores s t) (p : P s) :
    P t := by
  induction h with
  | refl => exact p
  | tail _ m ih => exact step _ _ m ih

/-! ## What a store keeps -/

theorem Store.canonical {s t : State} (h : Store s t) (c : s.MemoriesCanonical) : t.MemoriesCanonical := by
  cases h with
  | same _ h => exact ⟨h.ram ▸ c.ram, h.prgRom ▸ c.prgRom, h.prgRam ▸ c.prgRam, h.chrRom ▸ c.chrRom, h.chrRam ▸ c.chrRam,
      h.ciram ▸ c.ciram, h.palette ▸ c.palette, h.oam ▸ c.oam, h.frame ▸ c.frame⟩
  | ram a d h => exact { c with ram := Memory.write_wf a d c.ram }
  | prgRam a d h => exact { c with prgRam := Memory.write_wf a d c.prgRam }
  | chrRam a d h => exact { c with chrRam := Memory.write_wf a d c.chrRam }
  | ciram a d h => exact { c with ciram := Memory.write_wf a d c.ciram }
  | palette a d h => exact { c with palette := Memory.write_wf a d c.palette }
  | oam a d h => exact { c with oam := Memory.write_wf a d c.oam }
  | frame a d h => exact { c with frame := Memory.write_wf a d c.frame }

theorem Store.sized {s t : State} (h : Store s t) (c : s.MemoriesSized) : t.MemoriesSized := by
  cases h with
  | same _ h =>
    constructor
    · rw [h.ram]; exact c.ram
    · rw [h.prgRom, h.cart]; exact c.prgRom
    · rw [h.prgRam]; exact c.prgRam
    · rw [h.chrRom, h.cart]; exact c.chrRom
    · rw [h.chrRam]; exact c.chrRam
    · rw [h.ciram]; exact c.ciram
    · rw [h.palette]; exact c.palette
    · rw [h.oam]; exact c.oam
    · rw [h.frame]; exact c.frame
  | ram a d h => exact { c with ram := Memory.write_within d c.ram h }
  | prgRam a d h => exact { c with prgRam := Memory.write_within d c.prgRam h }
  | chrRam a d h => exact { c with chrRam := Memory.write_within d c.chrRam h }
  | ciram a d h => exact { c with ciram := Memory.write_within d c.ciram h }
  | palette a d h => exact { c with palette := Memory.write_within d c.palette h }
  | oam a d h => exact { c with oam := Memory.write_within d c.oam h }
  | frame a d h => exact { c with frame := Memory.write_within d c.frame h }

/-- The cells after a write are those before it, and the written one. -/
theorem Memory.mem_write {m : Memory} {a : Nat} {d : Byte} {c : Host.Cell} (h : c ∈ m.write a d) :
    c = (a, d) ∨ c ∈ m := by
  induction m with
  | nil =>
    unfold Memory.write at h
    split at h
    · exact .inr h
    · exact .inl (by simpa using h)
  | cons e rest ih =>
    obtain ⟨k, b⟩ := e
    unfold Memory.write at h
    split_ifs at h
    · exact .inr h
    · rcases List.mem_cons.mp h with h | h
      · exact .inl h
      · exact .inr h
    · exact .inr (List.mem_cons_of_mem _ h)
    · rcases List.mem_cons.mp h with h | h
      · exact .inl h
      · exact .inr (List.mem_cons_of_mem _ h)
    · rcases List.mem_cons.mp h with h | h
      · exact .inr (by simp [h])
      · rcases ih h with h | h
        · exact .inl h
        · exact .inr (List.mem_cons_of_mem _ h)

theorem Store.narrow {s t : State} (h : Store s t) (c : s.ColoursNarrow) : t.ColoursNarrow := by
  cases h with
  | same _ h => exact ⟨h.palette ▸ c.palette, h.frame ▸ c.frame⟩
  | palette a d h hd =>
    refine ⟨fun x hx => ?_, c.frame⟩
    rcases Memory.mem_write hx with e | e
    · rw [e]; exact hd
    · exact c.palette x e
  | frame a d h hd =>
    refine ⟨c.palette, fun x hx => ?_⟩
    rcases Memory.mem_write hx with e | e
    · rw [e]; exact hd
    · exact c.frame x e
  | _ => exact ⟨c.palette, c.frame⟩

/-! ## The operations as stores -/

theorem OnlyRead.stores {s t : State} (h : OnlyRead s t) : Stores s t :=
  .same ⟨h.ram, h.prgRom, h.prgRam, h.chrRom, h.chrRam, h.ciram, h.palette, h.oam, h.frame, h.cart⟩

theorem bankIndex_lt (n : Nat) (i : Int) (h : 1 ≤ n) : bankIndex n i < n := by
  have := Int.tmod_lt_of_pos (i.tmod n + n) (show (0 : Int) < n by omega)
  rw [bankIndex]
  omega

/-- A window names a byte inside its segment, where the segment has a bank (20_memory R152). -/
theorem windowOffset_lt (c : CartInfo) (w : Window) (a : Nat) (h : 1 ≤ c.bankCount w.seg) :
    c.windowOffset w a < c.bankCount w.seg * w.seg.bankSize := by
  have hb := bankIndex_lt (c.bankCount w.seg) w.bank h
  have hs : 0 < w.seg.bankSize := by cases w.seg <;> decide
  have hm := Nat.mod_lt a hs
  rw [CartInfo.windowOffset]
  nlinarith

theorem windowWrite_stores (w : Window) (a : Nat) (d : Byte) (s : State) : Stores s (windowWrite w a d s) := by
  have h := windowOffset_lt s.cart w a
  rw [windowWrite]
  split
  · rename_i e
    rw [e] at h
    simp only [CartInfo.bankCount, Segment.bankSize] at h
    exact .one (.prgRam _ d (by omega))
  · rename_i e
    rw [e] at h
    simp only [CartInfo.bankCount, Segment.bankSize] at h
    exact .one (.chrRam _ d (by omega))
  · exact .refl s
  · exact .refl s

theorem ciramAddr_lt (l : Mirroring) (a : VAddr) : ciramAddr l a < 2048 := by
  have h : l.page (a.extractLsb' 10 2) ≤ 1 := by
    cases l <;> simp only [Mirroring.page] <;> first | omega | (split <;> omega)
  have h' := (a.extractLsb' 0 10).isLt
  rw [ciramAddr]
  omega

theorem palIndex_lt (a : VAddr) : palIndex a < 32 := by
  have h := (a.extractLsb' 0 5).isLt
  rw [palIndex]
  split <;> omega

/-- A byte masked with $3F has six bits. -/
theorem and_3F_lt (d : Byte) : (d &&& 0x3F).toNat < 64 := by
  rw [BitVec.toNat_and]
  exact Nat.lt_of_le_of_lt Nat.and_le_right (by decide)

theorem vWrite_stores (a : VAddr) (d : Byte) (s : State) : Stores s (vWrite a d s) := by
  rw [vWrite]
  split_ifs
  · exact windowWrite_stores _ _ d s
  · exact .one (.ciram _ d (ciramAddr_lt _ a))
  · exact .one (.palette _ _ (palIndex_lt a) (and_3F_lt _))

theorem setPpu_stores (s : State) (q : Ppu) : Stores s (s.setPpu q) := .same (by constructor <;> rfl)

theorem ppuRegWrite_stores (r : PpuReg) (d : Byte) (s : State) : Stores s (ppuRegWrite r d s) := by
  cases r
  case data => exact (vWrite_stores _ d s).trans (setPpu_stores _ _)
  case oamData => exact (Stores.one (.oam _ d s.ppu.oamAddr.isLt)).trans (setPpu_stores _ _)
  case status => exact .refl s
  case scroll => rw [ppuRegWrite, scrollWrite]; split <;> exact setPpu_stores s _
  case addr => rw [ppuRegWrite, addrWrite]; split <;> exact setPpu_stores s _
  case ctrl => exact .same (by constructor <;> rfl)
  all_goals exact setPpu_stores s _

theorem dmaFrom_stores (page : Byte) (n : Nat) (s : State) : Stores s (dmaFrom page n s) := by
  induction n generalizing s with
  | zero => exact .refl s
  | succ n ih =>
    refine Stores.trans ?_ (ih _)
    exact (memRead_onlyRead _ s).stores.tail (.oam _ _ (Nat.mod_lt _ (by decide)))

/-- A CPU write is stores in memories (20_memory R151, R153). -/
theorem memWrite_stores (a : Word) (d : Byte) (s : State) : Stores s (memWrite a d s) := by
  unfold memWrite
  split
  · exact .one (.ram _ d (Nat.mod_lt _ (by decide)))
  · exact ppuRegWrite_stores _ d s
  · exact (dmaFrom_stores d 256 s).trans (.same (by constructor <;> rfl))
  · exact .same (by constructor <;> rfl)
  · exact .refl s
  · exact .refl s
  · exact windowWrite_stores _ _ d s
  · exact .same (by constructor <;> rfl)

theorem mapperVideoRead_stores (a : VAddr) (s : State) : Stores s (mapperVideoRead a s) := by
  rw [mapperVideoRead_eq]
  exact .same (by constructor <;> rfl)

theorem backgroundFetch_stores (f : Nat) (s : State) : Stores s (backgroundFetch f s) := by
  unfold backgroundFetch
  split
  · exact setPpu_stores _ _
  · exact setPpu_stores _ _
  · exact Stores.trans (setPpu_stores s _) (mapperVideoRead_stores _ _)
  · exact Stores.trans (Stores.trans (setPpu_stores s _) (mapperVideoRead_stores _ _)) (setPpu_stores _ _)
  · exact .refl s

theorem renderDot_stores (L D : Nat) (s : State) : Stores s (renderDot L D s) := by
  have hf : Stores s (fetchDot D s) := by
    rw [fetchDot]
    split
    · exact (setPpu_stores s _).trans (backgroundFetch_stores _ _)
    · exact .refl s
  have hs : ∀ u, Stores u (scrollDot D u) := fun u => by
    rw [scrollDot]; split_ifs <;> exact setPpu_stores _ _
  have hp : ∀ u, Stores u (spriteDot D u) := fun u => by
    rw [spriteDot]; split_ifs <;> first | exact mapperVideoRead_stores _ _ | exact .refl _
  have hv : ∀ u, Stores u (verticalCopyDot L D u) := fun u => by
    rw [verticalCopyDot]; split_ifs <;> exact setPpu_stores _ _
  exact ((hf.trans (hs _)).trans (hp _)).trans (hv _)

theorem flagDot_stores (L D : Nat) (s : State) : Stores s (flagDot L D s) := by
  rw [flagDot]
  split_ifs
  · exact .refl s
  · exact .same (by constructor <;> rfl)
  · exact setPpu_stores _ _
  · exact .refl s

/-- A dot's only store in a memory is one pixel (50_ppu R640). -/
theorem dot_stores (s : State) : Stores s (dot s) := by
  rw [dot, dotActions]
  refine Stores.trans ?_ (setPpu_stores _ _)
  refine Stores.trans ?_ (flagDot_stores _ _ _)
  have drawn : Stores s (if s.ppu.line < 240 ∧ 1 ≤ s.ppu.dot ∧ s.ppu.dot ≤ 256 then pixel s.ppu.line s.ppu.dot s
      else s) := by
    split
    · exact .one (.frame _ _ (by omega) (and_3F_lt _))
    · exact .refl s
  split
  · exact drawn.trans (renderDot_stores _ _ _)
  · exact drawn

theorem tick_stores (n : Nat) (s : State) : Stores s (tick n s) := by
  induction n generalizing s with
  | zero => exact .refl s
  | succ n ih => exact (dot_stores s).trans (ih _)

end Sys2Proof.Machine
end

