-- ==== Sys2Proof/Tests/Slice0.lean ====
section
/-! SUPPORT. Tests of single steps against the vectors of spec/95_test_vectors.md (Parts 1 to 4), one instruction word a row
of spec/opcode_table.json against its decoding, ill-formed terms, and the witnesses of the obligations. -/

namespace Sys2Proof.Tests

open Sys2Proof.Machine

/-! ## Ill-formed terms (each check of WellFormed.lean refuses one) -/

/-- LDA #$80 at $8000 as `Decode` makes it. -/
def goodOp : MicroOp := { addr := 0x8000, opcode := 0xA9, mode := .imm, kind := .lda, operand := 0x80, len := 2 }
/-- JMP $8000 after it. -/
def jumpOp : MicroOp := { addr := 0x8002, opcode := 0x4C, mode := .abs, kind := .jmp, operand := 0x8000, len := 3 }

theorem test_wf_op : goodOp.wf = true := by decide
theorem test_wf_op_length : MicroOp.wf { goodOp with len := 3 } = false := by decide
theorem test_wf_op_byte_operand : MicroOp.wf { goodOp with operand := 0x100 } = false := by decide
theorem test_wf_op_no_operand :
    MicroOp.wf { goodOp with mode := .imp, len := 1, operand := 1 } = false := by decide
theorem test_wf_trace : Trace.wf 0x8000 { first := goodOp, rest := [jumpOp] } = true := by decide
theorem test_wf_trace_key : Trace.wf 0x8001 { first := goodOp, rest := [jumpOp] } = false := by decide
theorem test_wf_trace_gap :
    Trace.wf 0x8000 { first := goodOp, rest := [{ jumpOp with addr := 0x8003 }] } = false := by decide
theorem test_wf_trace_past_end :
    Trace.wf 0x8002 { first := jumpOp, rest := [{ goodOp with addr := 0x8005 }] } = false := by decide
theorem test_wf_trace_wrap :
    Trace.wf 0xFFFE { first := { goodOp with addr := 0xFFFE }, rest := [{ goodOp with addr := 0 }] } = false := by decide
theorem test_wf_trace_bad_op : Trace.wf 0x8000 { first := { goodOp with len := 1 }, rest := [] } = false := by decide
theorem test_wf_config : defaultConfig.wf = true := by decide +kernel
theorem test_wf_config_table : Config.wf { defaultConfig with cycleTable := [] } = false := by decide +kernel
theorem test_wf_config_line : Config.wf { defaultConfig with dotsPerLine := 1 } = false := by decide +kernel
theorem test_wf_config_frame : Config.wf { defaultConfig with linesPerFrame := 0 } = false := by decide +kernel
theorem test_wf_config_vblank : Config.wf { defaultConfig with vblankLine := 262 } = false := by decide +kernel
theorem test_wf_config_prescan : Config.wf { defaultConfig with prescanLine := 262 } = false := by decide +kernel
theorem test_wf_config_window_low : Config.wf { defaultConfig with ppuRegWindowEnd := 0x1FFF } = false := by decide +kernel
theorem test_wf_config_window_high : Config.wf { defaultConfig with ppuRegWindowEnd := 0x4000 } = false := by decide +kernel
theorem test_wf_memory_order : Memory.wf [(2, 1), (1, 1)] = false := by decide
theorem test_wf_memory_zero : Memory.wf [(1, 0)] = false := by decide
theorem test_within_memory : Memory.within [(32, 1)] 32 = false := by decide

/-! ## Decoding: the bytes of each row, written from 30_encoding R269 and R253, and the instruction they stand for -/

/-- The bytes decode to the instruction, to the last one. -/
def reads (bytes : List Byte) (i : Instr) : Bool :=
  match decode bytes with
  | .ok (j, []) => decide (j = i)
  | _ => false

theorem test_decode_loads :
    (reads [0xA9, 0x9C] (.ldaImm 0x9C) &&
      reads [0xA5, 0x9C] (.ldaZp 0x9C) &&
      reads [0xB5, 0x9C] (.ldaZpx 0x9C) &&
      reads [0xAD, 0x34, 0x12] (.ldaAbs 0x1234) &&
      reads [0xBD, 0x34, 0x12] (.ldaAbx 0x1234) &&
      reads [0xB9, 0x34, 0x12] (.ldaAby 0x1234) &&
      reads [0xA1, 0x9C] (.ldaIzx 0x9C) &&
      reads [0xB1, 0x9C] (.ldaIzy 0x9C) &&
      reads [0xA2, 0x9C] (.ldxImm 0x9C) &&
      reads [0xA6, 0x9C] (.ldxZp 0x9C) &&
      reads [0xB6, 0x9C] (.ldxZpy 0x9C) &&
      reads [0xAE, 0x34, 0x12] (.ldxAbs 0x1234) &&
      reads [0xBE, 0x34, 0x12] (.ldxAby 0x1234) &&
      reads [0xA0, 0x9C] (.ldyImm 0x9C) &&
      reads [0xA4, 0x9C] (.ldyZp 0x9C) &&
      reads [0xB4, 0x9C] (.ldyZpx 0x9C) &&
      reads [0xAC, 0x34, 0x12] (.ldyAbs 0x1234) &&
      reads [0xBC, 0x34, 0x12] (.ldyAbx 0x1234)) = true := by decide

theorem test_decode_stores :
    (reads [0x85, 0x9C] (.staZp 0x9C) &&
      reads [0x95, 0x9C] (.staZpx 0x9C) &&
      reads [0x8D, 0x34, 0x12] (.staAbs 0x1234) &&
      reads [0x9D, 0x34, 0x12] (.staAbx 0x1234) &&
      reads [0x99, 0x34, 0x12] (.staAby 0x1234) &&
      reads [0x81, 0x9C] (.staIzx 0x9C) &&
      reads [0x91, 0x9C] (.staIzy 0x9C) &&
      reads [0x86, 0x9C] (.stxZp 0x9C) &&
      reads [0x96, 0x9C] (.stxZpy 0x9C) &&
      reads [0x8E, 0x34, 0x12] (.stxAbs 0x1234) &&
      reads [0x84, 0x9C] (.styZp 0x9C) &&
      reads [0x94, 0x9C] (.styZpx 0x9C) &&
      reads [0x8C, 0x34, 0x12] (.styAbs 0x1234)) = true := by decide

theorem test_decode_transfers_and_stack :
    (reads [0xAA] .tax &&
      reads [0xA8] .tay &&
      reads [0x8A] .txa &&
      reads [0x98] .tya &&
      reads [0xBA] .tsx &&
      reads [0x9A] .txs &&
      reads [0x48] .pha &&
      reads [0x68] .pla &&
      reads [0x08] .php &&
      reads [0x28] .plp) = true := by decide

theorem test_decode_add_and_subtract :
    (reads [0x69, 0x9C] (.adcImm 0x9C) &&
      reads [0x65, 0x9C] (.adcZp 0x9C) &&
      reads [0x75, 0x9C] (.adcZpx 0x9C) &&
      reads [0x6D, 0x34, 0x12] (.adcAbs 0x1234) &&
      reads [0x7D, 0x34, 0x12] (.adcAbx 0x1234) &&
      reads [0x79, 0x34, 0x12] (.adcAby 0x1234) &&
      reads [0x61, 0x9C] (.adcIzx 0x9C) &&
      reads [0x71, 0x9C] (.adcIzy 0x9C) &&
      reads [0xE9, 0x9C] (.sbcImm 0x9C) &&
      reads [0xE5, 0x9C] (.sbcZp 0x9C) &&
      reads [0xF5, 0x9C] (.sbcZpx 0x9C) &&
      reads [0xED, 0x34, 0x12] (.sbcAbs 0x1234) &&
      reads [0xFD, 0x34, 0x12] (.sbcAbx 0x1234) &&
      reads [0xF9, 0x34, 0x12] (.sbcAby 0x1234) &&
      reads [0xE1, 0x9C] (.sbcIzx 0x9C) &&
      reads [0xF1, 0x9C] (.sbcIzy 0x9C)) = true := by decide

theorem test_decode_logic :
    (reads [0x29, 0x9C] (.andImm 0x9C) &&
      reads [0x25, 0x9C] (.andZp 0x9C) &&
      reads [0x35, 0x9C] (.andZpx 0x9C) &&
      reads [0x2D, 0x34, 0x12] (.andAbs 0x1234) &&
      reads [0x3D, 0x34, 0x12] (.andAbx 0x1234) &&
      reads [0x39, 0x34, 0x12] (.andAby 0x1234) &&
      reads [0x21, 0x9C] (.andIzx 0x9C) &&
      reads [0x31, 0x9C] (.andIzy 0x9C) &&
      reads [0x09, 0x9C] (.oraImm 0x9C) &&
      reads [0x05, 0x9C] (.oraZp 0x9C) &&
      reads [0x15, 0x9C] (.oraZpx 0x9C) &&
      reads [0x0D, 0x34, 0x12] (.oraAbs 0x1234) &&
      reads [0x1D, 0x34, 0x12] (.oraAbx 0x1234) &&
      reads [0x19, 0x34, 0x12] (.oraAby 0x1234) &&
      reads [0x01, 0x9C] (.oraIzx 0x9C) &&
      reads [0x11, 0x9C] (.oraIzy 0x9C) &&
      reads [0x49, 0x9C] (.eorImm 0x9C) &&
      reads [0x45, 0x9C] (.eorZp 0x9C) &&
      reads [0x55, 0x9C] (.eorZpx 0x9C) &&
      reads [0x4D, 0x34, 0x12] (.eorAbs 0x1234) &&
      reads [0x5D, 0x34, 0x12] (.eorAbx 0x1234) &&
      reads [0x59, 0x34, 0x12] (.eorAby 0x1234) &&
      reads [0x41, 0x9C] (.eorIzx 0x9C) &&
      reads [0x51, 0x9C] (.eorIzy 0x9C) &&
      reads [0x24, 0x9C] (.bitZp 0x9C) &&
      reads [0x2C, 0x34, 0x12] (.bitAbs 0x1234)) = true := by decide

theorem test_decode_compare :
    (reads [0xC9, 0x9C] (.cmpImm 0x9C) &&
      reads [0xC5, 0x9C] (.cmpZp 0x9C) &&
      reads [0xD5, 0x9C] (.cmpZpx 0x9C) &&
      reads [0xCD, 0x34, 0x12] (.cmpAbs 0x1234) &&
      reads [0xDD, 0x34, 0x12] (.cmpAbx 0x1234) &&
      reads [0xD9, 0x34, 0x12] (.cmpAby 0x1234) &&
      reads [0xC1, 0x9C] (.cmpIzx 0x9C) &&
      reads [0xD1, 0x9C] (.cmpIzy 0x9C) &&
      reads [0xE0, 0x9C] (.cpxImm 0x9C) &&
      reads [0xE4, 0x9C] (.cpxZp 0x9C) &&
      reads [0xEC, 0x34, 0x12] (.cpxAbs 0x1234) &&
      reads [0xC0, 0x9C] (.cpyImm 0x9C) &&
      reads [0xC4, 0x9C] (.cpyZp 0x9C) &&
      reads [0xCC, 0x34, 0x12] (.cpyAbs 0x1234)) = true := by decide

theorem test_decode_increment :
    (reads [0xE6, 0x9C] (.incZp 0x9C) &&
      reads [0xF6, 0x9C] (.incZpx 0x9C) &&
      reads [0xEE, 0x34, 0x12] (.incAbs 0x1234) &&
      reads [0xFE, 0x34, 0x12] (.incAbx 0x1234) &&
      reads [0xC6, 0x9C] (.decZp 0x9C) &&
      reads [0xD6, 0x9C] (.decZpx 0x9C) &&
      reads [0xCE, 0x34, 0x12] (.decAbs 0x1234) &&
      reads [0xDE, 0x34, 0x12] (.decAbx 0x1234) &&
      reads [0xE8] .inx &&
      reads [0xC8] .iny &&
      reads [0xCA] .dex &&
      reads [0x88] .dey) = true := by decide

theorem test_decode_shift :
    (reads [0x0A] .aslAcc &&
      reads [0x06, 0x9C] (.aslZp 0x9C) &&
      reads [0x16, 0x9C] (.aslZpx 0x9C) &&
      reads [0x0E, 0x34, 0x12] (.aslAbs 0x1234) &&
      reads [0x1E, 0x34, 0x12] (.aslAbx 0x1234) &&
      reads [0x4A] .lsrAcc &&
      reads [0x46, 0x9C] (.lsrZp 0x9C) &&
      reads [0x56, 0x9C] (.lsrZpx 0x9C) &&
      reads [0x4E, 0x34, 0x12] (.lsrAbs 0x1234) &&
      reads [0x5E, 0x34, 0x12] (.lsrAbx 0x1234) &&
      reads [0x2A] .rolAcc &&
      reads [0x26, 0x9C] (.rolZp 0x9C) &&
      reads [0x36, 0x9C] (.rolZpx 0x9C) &&
      reads [0x2E, 0x34, 0x12] (.rolAbs 0x1234) &&
      reads [0x3E, 0x34, 0x12] (.rolAbx 0x1234) &&
      reads [0x6A] .rorAcc &&
      reads [0x66, 0x9C] (.rorZp 0x9C) &&
      reads [0x76, 0x9C] (.rorZpx 0x9C) &&
      reads [0x6E, 0x34, 0x12] (.rorAbs 0x1234) &&
      reads [0x7E, 0x34, 0x12] (.rorAbx 0x1234)) = true := by decide

theorem test_decode_branch :
    (reads [0x90, 0x9C] (.bcc 0x9C) &&
      reads [0xB0, 0x9C] (.bcs 0x9C) &&
      reads [0xF0, 0x9C] (.beq 0x9C) &&
      reads [0x30, 0x9C] (.bmi 0x9C) &&
      reads [0xD0, 0x9C] (.bne 0x9C) &&
      reads [0x10, 0x9C] (.bpl 0x9C) &&
      reads [0x50, 0x9C] (.bvc 0x9C) &&
      reads [0x70, 0x9C] (.bvs 0x9C)) = true := by decide

theorem test_decode_jump :
    (reads [0x4C, 0x34, 0x12] (.jmpAbs 0x1234) &&
      reads [0x6C, 0x34, 0x12] (.jmpInd 0x1234) &&
      reads [0x20, 0x34, 0x12] (.jsr 0x1234) &&
      reads [0x60] .rts &&
      reads [0x40] .rti &&
      reads [0x00] .brk) = true := by decide

theorem test_decode_flag :
    (reads [0x18] .clc &&
      reads [0xD8] .cld &&
      reads [0x58] .cli &&
      reads [0xB8] .clv &&
      reads [0x38] .sec &&
      reads [0xF8] .sed &&
      reads [0x78] .sei &&
      reads [0xEA] .nop) = true := by decide

theorem test_decode_undefined :
    (match decode [0x02, 0x00] with | .error (.undefinedOpcode b) => b | _ => 0) = 0x02 := by decide
theorem test_decode_truncated : decode [0xAD, 0x34] = .error .truncated := by rfl
theorem test_table_word : decodeTableWord 8 0xAD = some (.ldaAbs 0) := by decide

/-! ## Single instructions (95_test_vectors Parts 1.5 and 2) -/

/-- The start state of 95_test_vectors: S = $FD, P = $24, A = X = Y = 0, PC = $8000, NROM with 32 KB. -/
def start : State := { State.reset with pc := 0x8000 }

/-- What is looked at in the next state; none where the step stops. -/
def got {α : Type} (o : Out) (f : State → α) : Option α :=
  match o with
  | .next t => some (f t)
  | _ => none

/-- A, P and the cycles used. -/
def apc (t : State) : Byte × Byte × Nat := (t.a, t.p, t.cycles)

theorem test_adc_edge :
    got (exec (.adcImm 0xFF) { start with p := 0x25 }) (apc) = some (0, 0x27, 2) := by decide
theorem test_adc_overflow :
    got (exec (.adcImm 0x50) { start with a := 0x50 }) (apc) = some (0xA0, 0xE4, 2) := by decide
theorem test_sbc_borrow :
    got (exec (.sbcImm 0x01) { start with p := 0x25 }) (apc) = some (0xFF, 0xA4, 2) := by decide
theorem test_sbc_overflow :
    got (exec (.sbcImm 0xB0) { start with a := 0x50, p := 0x25 }) (apc) = some (0xA0, 0xE4, 2) := by decide
theorem test_adc_decimal :
    got (exec (.adcImm 0x09) { start with a := 0x09, p := 0x2C }) (apc) = some (0x12, 0x2C, 2) := by decide
theorem test_lda_imm :
    got (exec (.ldaImm 0x00) { start with a := 0x55 }) (apc) = some (0, 0x26, 2) := by decide
theorem test_lda_zpx_wrap :
    got (exec (.ldaZpx 0xFF) { start with x := 1, ram := [(0, 0x42)] }) (fun t => (t.a, t.cycles)) = some (0x42, 4) := by decide
theorem test_lda_abx_cross :
    got (exec (.ldaAbx 0x12F0) { start with x := 0x20, ram := [(0x310, 0x07)] }) (fun t => (t.a, t.cycles, t.pc)) = some (0x07, 5, 0x8003) := by decide
theorem test_lda_izx_wrap :
    got (exec (.ldaIzx 0xFF) { start with ram := [(0, 2), (0xFF, 0x34), (0x234, 0x99)] }) (apc) = some (0x99, 0xA4, 6) := by decide
theorem test_lda_izy_cross :
    got (exec (.ldaIzy 0x10) { start with y := 0xFF, ram := [(0x10, 1), (0x11, 2), (0x300, 1)] }) (fun t => (t.a, t.cycles)) = some (1, 6) := by decide
theorem test_ldx_zpy :
    got (exec (.ldxZpy 0xF0) { start with y := 0x20, ram := [(0x10, 0x81)] }) (fun t => (t.x, t.p, t.cycles)) = some (0x81, 0xA4, 4) := by decide
theorem test_ldy_imm :
    got (exec (.ldyImm 0xFF) { start with y := 0 }) (fun t => (t.y, t.p)) = some (0xFF, 0xA4) := by decide
theorem test_sta_abx :
    got (exec (.staAbx 0x12F0) { start with a := 0x33, x := 0x0F }) (fun t => (t.ram, t.p, t.cycles)) = some ([(0x2FF, 0x33)], 0x24, 5) := by decide
theorem test_sta_izy :
    got (exec (.staIzy 0x10) { start with a := 0x33, ram := [(0x11, 2)] }) (fun t => (t.ram, t.cycles)) = some ([(0x11, 2), (0x200, 0x33)], 6) := by decide
theorem test_stx_abs :
    got (exec (.stxAbs 0x0700) { start with x := 0x44 }) (fun t => (peek t 0x1F00, t.cycles)) = some (some 0x44, 4) := by decide
theorem test_sty_zpx_wrap :
    got (exec (.styZpx 0xFF) { start with x := 1, y := 5 }) (fun t => t.ram) = some ([(0, 5)]) := by decide
theorem test_txs :
    got (exec (.txs) { start with sp := 0x80 }) (fun t => (t.sp, t.p, t.cycles)) = some (0, 0x24, 2) := by decide
theorem test_tsx :
    got (exec (.tsx) { start with sp := 0x80 }) (fun t => (t.x, t.p)) = some (0x80, 0xA4) := by decide
theorem test_tax :
    got (exec (.tax) { start with x := 7 }) (fun t => (t.x, t.p)) = some (0, 0x26) := by decide
theorem test_tay :
    got (exec (.tay) { start with a := 0x90 }) (fun t => (t.y, t.p)) = some (0x90, 0xA4) := by decide
theorem test_txa :
    got (exec (.txa) { start with x := 1 }) (fun t => (t.a, t.p)) = some (1, 0x24) := by decide
theorem test_tya :
    got (exec (.tya) { start with y := 0xFF }) (fun t => (t.a, t.p)) = some (0xFF, 0xA4) := by decide
theorem test_pha_wrap :
    got (exec (.pha) { start with sp := 0, a := 0x77 }) (fun t => (t.ram, t.sp, t.cycles)) = some ([(0x100, 0x77)], 0xFF, 3) := by decide
theorem test_pla_wrap :
    got (exec (.pla) { start with sp := 0xFF, a := 5 }) (fun t => (t.a, t.sp, t.p, t.cycles)) = some (0, 0, 0x26, 4) := by decide
theorem test_php :
    got (exec (.php) { start with p := 0x24 }) (fun t => (t.ram, t.p, t.cycles)) = some ([(0x1FD, 0x34)], 0x24, 3) := by decide
theorem test_plp :
    got (exec (.plp) { start with ram := [(0x1FE, 0xFF)] }) (fun t => (t.p, t.sp, t.cycles)) = some (0xEF, 0xFE, 4) := by decide
theorem test_and :
    got (exec (.andImm 0x0F) { start with a := 0xF0 }) (apc) = some (0, 0x26, 2) := by decide
theorem test_ora :
    got (exec (.oraImm 0x80) { start with a := 1 }) (apc) = some (0x81, 0xA4, 2) := by decide
theorem test_eor :
    got (exec (.eorImm 0xFF) { start with a := 0xFF }) (apc) = some (0, 0x26, 2) := by decide
theorem test_bit :
    got (exec (.bitZp 0x10) { start with a := 1, ram := [(0x10, 0xC0)] }) (apc) = some (1, 0xE6, 3) := by decide
theorem test_bit_clears :
    got (exec (.bitZp 0x10) { start with a := 1, p := 0xE4, ram := [(0x10, 0x3F)] }) (apc) = some (1, 0x24, 3) := by decide
theorem test_cmp_negative :
    got (exec (.cmpImm 0x01) { start with a := 0xFF }) (apc) = some (0xFF, 0xA5, 2) := by decide
theorem test_cmp_less :
    got (exec (.cmpImm 0xFF) { start with a := 0 }) (apc) = some (0, 0x24, 2) := by decide
theorem test_cpx :
    got (exec (.cpxImm 0x00) { start with x := 0x80 }) (apc) = some (0, 0xA5, 2) := by decide
theorem test_cpy :
    got (exec (.cpyImm 0x90) { start with y := 0x10 }) (apc) = some (0, 0xA4, 2) := by decide
theorem test_inc_wrap :
    got (exec (.incZp 0x10) { start with p := 0x25, ram := [(0x10, 0xFF)] }) (fun t => (t.ram, t.p, t.cycles)) = some ([], 0x27, 5) := by decide
theorem test_dec_wrap :
    got (exec (.decZp 0x10) { start with ram := [] }) (fun t => (t.ram, t.p, t.cycles)) = some ([(0x10, 0xFF)], 0xA4, 5) := by decide
theorem test_inx :
    got (exec (.inx) { start with x := 0x7F }) (fun t => (t.x, t.p)) = some (0x80, 0xA4) := by decide
theorem test_iny :
    got (exec (.iny) { start with y := 0 }) (fun t => (t.y, t.p)) = some (1, 0x24) := by decide
theorem test_dex :
    got (exec (.dex) { start with x := 1 }) (fun t => (t.x, t.p)) = some (0, 0x26) := by decide
theorem test_dey :
    got (exec (.dey) { start with y := 0x80 }) (fun t => (t.y, t.p)) = some (0x7F, 0x24) := by decide
theorem test_asl_acc :
    got (exec (.aslAcc) { start with a := 0x81 }) (apc) = some (0x02, 0x25, 2) := by decide
theorem test_asl_abx :
    got (exec (.aslAbx 0x12F0) { start with x := 0x20, ram := [(0x310, 0x40)] }) (fun t => (t.ram, t.p, t.cycles)) = some ([(0x310, 0x80)], 0xA4, 7) := by decide
theorem test_lsr_acc :
    got (exec (.lsrAcc) { start with a := 1 }) (apc) = some (0, 0x27, 2) := by decide
theorem test_rol_zero :
    got (exec (.rolAcc) { start with a := 0x80 }) (apc) = some (0, 0x27, 2) := by decide
theorem test_rol_carry :
    got (exec (.rolAcc) { start with a := 0x40, p := 0x25 }) (apc) = some (0x81, 0xA4, 2) := by decide
theorem test_ror_carry :
    got (exec (.rorAcc) { start with a := 1, p := 0x25 }) (apc) = some (0x80, 0xA5, 2) := by decide
theorem test_bne_taken : got (exec (.bne 0x10) start) (fun t => (t.pc, t.cycles)) = some (0x8012, 3) := by decide
theorem test_bne_not_taken :
    got (exec (.bne 0x10) { start with p := 0x26 }) (fun t => (t.pc, t.cycles)) = some (0x8002, 2) := by decide
theorem test_beq_cross :
    got (exec (.beq 0xFD) { start with p := 0x26 }) (fun t => (t.pc, t.cycles)) = some (0x7FFF, 4) := by decide
theorem test_bpl : got (exec (.bpl 0x7F) start) (fun t => (t.pc, t.cycles)) = some (0x8081, 3) := by decide
theorem test_bmi_cross :
    got (exec (.bmi 0x80) { start with p := 0xA4 }) (fun t => (t.pc, t.cycles)) = some (0x7F82, 4) := by decide
theorem test_bcc : got (exec (.bcc 0x00) start) (fun t => (t.pc, t.cycles)) = some (0x8002, 3) := by decide
theorem test_bcs :
    got (exec (.bcs 0x02) { start with p := 0x25 }) (fun t => (t.pc, t.cycles)) = some (0x8004, 3) := by decide
theorem test_bvc :
    got (exec (.bvc 0x02) { start with p := 0x64 }) (fun t => (t.pc, t.cycles)) = some (0x8002, 2) := by decide
theorem test_bvs :
    got (exec (.bvs 0x02) { start with p := 0x64 }) (fun t => (t.pc, t.cycles)) = some (0x8004, 3) := by decide
theorem test_jmp_abs : got (exec (.jmpAbs 0x1234) start) (fun t => (t.pc, t.cycles)) = some (0x1234, 3) := by decide
theorem test_jmp_ind_wrap :
    got (exec (.jmpInd 0x02FF) { start with ram := [(0x200, 0x12), (0x2FF, 0x34), (0x300, 0x56)] }) (fun t => (t.pc, t.cycles)) = some (0x1234, 5) := by decide
theorem test_jsr : got (exec (.jsr 0x9000) start) (fun t => (t.ram, t.sp, t.pc, t.cycles)) = some ([(0x1FC, 0x02), (0x1FD, 0x80)], 0xFB, 0x9000, 6) := by decide
theorem test_rts :
    got (exec (.rts) { start with sp := 0xFB, ram := [(0x1FC, 0x02), (0x1FD, 0x80)] }) (fun t => (t.pc, t.sp, t.cycles)) = some (0x8003, 0xFD, 6) := by decide
theorem test_rti :
    got (exec (.rti) { start with sp := 0xFA, ram := [(0x1FB, 0xFF), (0x1FC, 0x34), (0x1FD, 0x12)] }) (fun t => (t.p, t.pc, t.sp, t.cycles)) = some (0xEF, 0x1234, 0xFD, 6) := by decide
theorem test_brk :
    got (exec (.brk) { start with p := 0x20, prgRom := [(0x7FFF, 0x90)] }) (fun t => (t.ram, t.sp, t.p, t.pc, t.cycles)) = some ([(0x1FB, 0x30), (0x1FC, 0x02), (0x1FD, 0x80)], 0xFA, 0x24, 0x9000, 7) := by decide
theorem test_clc :
    got (exec (.clc) { start with p := 0xEF }) (fun t => (t.p, t.pc, t.cycles)) = some (0xEE, 0x8001, 2) := by decide
theorem test_sec :
    got (exec (.sec) { start with p := 0x24 }) (fun t => (t.p, t.pc, t.cycles)) = some (0x25, 0x8001, 2) := by decide
theorem test_cli :
    got (exec (.cli) { start with p := 0x24 }) (fun t => (t.p, t.pc, t.cycles)) = some (0x20, 0x8001, 2) := by decide
theorem test_sei :
    got (exec (.sei) { start with p := 0x20 }) (fun t => (t.p, t.pc, t.cycles)) = some (0x24, 0x8001, 2) := by decide
theorem test_clv :
    got (exec (.clv) { start with p := 0x64 }) (fun t => (t.p, t.pc, t.cycles)) = some (0x24, 0x8001, 2) := by decide
theorem test_cld :
    got (exec (.cld) { start with p := 0x2C }) (fun t => (t.p, t.pc, t.cycles)) = some (0x24, 0x8001, 2) := by decide
theorem test_sed :
    got (exec (.sed) { start with p := 0x24 }) (fun t => (t.p, t.pc, t.cycles)) = some (0x2C, 0x8001, 2) := by decide
theorem test_nop : got (exec (.nop) start) (fun t => (t.pc, t.cycles, t.p, t.ram)) = some (0x8001, 2, 0x24, []) := by decide

theorem test_sta_dma :
    got (exec (.staAbs 0x4014) { start with a := 2, ppu := { Ppu.reset with oamAddr := 0xFF }, ram := [(0x200, 7), (0x201, 8)] })
      (fun t => (t.oam, t.cycles)) = some ([(0, 8), (255, 7)], 517) := by decide +kernel
theorem test_sta_mapper_leaves_rom :
    got (exec (.staAbs 0x8000) { start with a := 2 }) (fun t => (t.prgRom, t.map)) =
      some ([], MapperState.nromReset) := by decide

/-! ## Steps: interrupts, faults, refusals (95_test_vectors Part 2.4) -/

/-- The start state with PRG-ROM bytes, one cycle into a long batch, so that a step is one CPU step. -/
def running (rom : Memory) : State :=
  { start with prgRom := rom, cycles := 1, host := { State.reset.host with running := some 1000 } }

theorem test_irq_masked :
    got (step { running [(0, 0xEA)] with irqLine := true }) (fun t => (t.pc, t.cycles)) = some (0x8001, 3) := by decide
theorem test_irq_taken :
    got (step { running [(0x7FFF, 0xA0)] with irqLine := true, p := 0x21 })
      (fun t => (t.ram, t.sp, t.p, t.pc, t.irqLine, t.cycles)) =
        some ([(0x1FB, 0x21), (0x1FD, 0x80)], 0xFA, 0x25, 0xA000, true, 8) := by decide
theorem test_nmi_over_irq :
    got (step { running [(0x7FFB, 0x90)] with nmiLine := true, irqLine := true, p := 0x20 })
      (fun t => (t.pc, t.nmiLine, t.irqLine, t.p)) = some (0x9000, false, true, 0x24) := by decide
theorem test_undefined_opcode :
    (match step (running [(0, 0x02)]) with | .fault f => some f | _ => none) =
      some (.undefinedOpcode 0x02 0x8000) := by decide
theorem test_dispatch_miss :
    (match step { running [] with cache := [(0x8000, { first := { goodOp with mode := .acc }, rest := [] })] } with
      | .fault f => some f | _ => none) = some (.dispatchMiss .lda .acc) := by decide
theorem test_fetch_outside :
    (match step { running [] with pc := 0x4000 } with | .refused r => some r | _ => none) =
      some (.fetchOutsideMemory 0x4000) := by decide
theorem test_use_after_destroy :
    (match step { start with host := { State.reset.host with alive := false } } with | .refused r => some r | _ => none) =
      some .useAfterDestroy := by decide
theorem test_trace_of_program_1 :
    got (step (running [(0, 0xA9), (2, 0x85), (3, 0x10), (4, 0xA5), (5, 0x10), (6, 0xC9), (8, 0x4C), (9, 0x08), (10, 0x80)]))
      (fun t => (t.cache.map (fun e => (e.1, e.2.ops.map (fun m => m.kind))), t.cur)) =
        some ([(0x8000, [.lda, .sta, .lda, .cmp, .jmp])], some (0x8000, 1)) := by decide
theorem test_stale_trace :
    got (step { running [(0, 0xEA)] with cache := [(0x8000, { first := goodOp, rest := [] })] }) (fun t => t.a) =
      some 0x80 := by decide
theorem test_batch_end_ticks_three_dots_a_cycle :
    got (step { start with prgRom := [(0, 0xEA)] }) (fun t => (t.ppu.line, t.ppu.dot, t.host.out)) =
      some (261, 6, [.ran 2]) := by decide
theorem test_with_fetch_word :
    got (step (State.reset.withFetchWord 16 0x55A9)) (fun t => (t.a, t.pc)) = some (0x55, 2) := by decide

/-! ## The PPU (95_test_vectors Part 3) -/

theorem test_scroll_writes :
    let s := scrollWrite 0x5E (scrollWrite 0x7D State.reset)
    ((scrollWrite 0x7D State.reset).ppu.t, s.ppu.t, s.ppu.x, s.ppu.w, (ctrlWrite 3 s).ppu.t) =
      (0x000F, 0x616F, 5, false, 0x6D6F) := by decide
theorem test_address_writes :
    let s := addrWrite 0xFF (addrWrite 0x3F State.reset)
    (s.ppu.v, (addrWrite 0xFF s).ppu.t, (addrWrite 0xFF s).ppu.w) = (0x3FFF, 0x3FFF, true) := by decide
theorem test_data_writes :
    let s := dataWrite 0xCD (dataWrite 0xAB (addrWrite 0x08 (addrWrite 0x21 State.reset)))
    (s.ciram, s.ppu.v) = ([(0x108, 0xAB), (0x109, 0xCD)], 0x210A) := by decide
theorem test_data_reads_lag :
    let s := dataWrite 0xCD (dataWrite 0xAB (addrWrite 0x08 (addrWrite 0x21 State.reset)))
    let t := addrWrite 0x08 (addrWrite 0x21 s)
    ((dataRead t).value, (dataRead (dataRead t).state).value, (dataRead (dataRead (dataRead t).state).state).value) =
      (0x00, 0xAB, 0xCD) := by decide
theorem test_data_increment_32 :
    (dataWrite 2 (dataWrite 1 (addrWrite 0 (addrWrite 0x20 (ctrlWrite 4 State.reset))))).ppu.v = 0x2040 := by decide
theorem test_palette_mirror :
    (dataWrite 0x8C (addrWrite 0x10 (addrWrite 0x3F State.reset))).palette = [(0, 0x0C)] := by decide
theorem test_nmi_on_ctrl_rise :
    let s := { State.reset with ppu := { Ppu.reset with vblank := true } }
    ((ctrlWrite 0x80 s).nmiLine, (ctrlWrite 0x80 ((ctrlWrite 0x80 s).setNmiLine false)).nmiLine,
      (ctrlWrite 0x80 State.reset).nmiLine) = (true, false, false) := by decide
theorem test_coarse_x : (incCoarseX 0x001F, incCoarseX 0x041F) = (0x0400, 0x0000) := by decide
theorem test_y_increment :
    (incY (incCoarseX 0x73A0), incY (incCoarseX 0x7BA0), incY (incCoarseX 0x73C0), incY (incCoarseX 0x73E0),
      incY (incCoarseX 0x00A0)) = (0x0801, 0x0001, 0x03E1, 0x0001, 0x10A1) := by decide
theorem test_copies : (copyHorizontal 0x7FFF 0, copyVertical 0 0x7FFF) = (0x7BE0, 0x7BE0) := by decide
theorem test_dots_from_reset :
    let s := tick 2 { State.reset with ppu := { Ppu.reset with vblank := true } }
    (s.ppu.line, s.ppu.dot, s.ppu.vblank) = (261, 2, false) := by decide
theorem test_vblank_entry :
    let s := dot { State.reset with ppu := { Ppu.reset with line := 241, dot := 1, ctrl := 0x80 } }
    (s.ppu.vblank, s.nmiLine, s.host.out) = (true, true, [.frame []]) := by decide
/-- The tile of Part 3.4 shows its first two pixels at dots 1 and 2 of line 0, after the prefetch of dots 321 to 336. -/
theorem test_first_pixels :
    let s := { State.reset with
      chrRam := [(16, 0x80), (24, 0xC0)], ciram := [(0, 1), (1, 1), (0x3C0, 1)],
      palette := [(0, 0x0F), (4, 0x0F), (5, 0x11), (6, 0x22), (7, 0x33)],
      ppu := { Ppu.reset with mask := 0x0A, dot := 321 } }
    (tick 24 s).frame = [(0, 0x33), (1, 0x22), (2, 0x0F)] := by decide +kernel

/-! ## Mappers and the controller (95_test_vectors Parts 1.1, 1.2, 1.6 and 4) -/

theorem test_bank_index :
    [bankIndex 1 (-1), bankIndex 4 (-1), bankIndex 4 (-2), bankIndex 4 (-5), bankIndex 4 4, bankIndex 4 5,
      bankIndex 16 (-1)] = [0, 3, 2, 3, 0, 1, 15] := by decide

/-- The bank indices, normalised, of CPU slots 4 to 7. -/
def prgBanks (m : MapperState) (n : Nat) : List Nat := m.prg.toList.map (fun w => bankIndex n w.bank)
/-- The bank indices, normalised, of PPU slots 0 to 7. -/
def chrBanks (m : MapperState) (n : Nat) : List Nat := m.chr.toList.map (fun w => bankIndex n w.bank)
/-- A cartridge of 128 KB of PRG-ROM. -/
def bigCart (chr : Nat) : CartInfo := { prgCount := 8, chrCount := chr, battery := false, headerMirroring := .vertical }
/-- Writes to the mapper, in order. -/
def writes (c : Segment) (l : List (Word × Byte)) (m : MapperState) : MapperState :=
  l.foldl (fun m w => m.write c w.1 w.2) m

theorem test_mmc1_reset :
    let m := mapperReset (.mmc1 Mmc1.reset) (bigCart 1)
    (prgBanks m 16, m.mirroring) = ([0, 1, 14, 15], .singleLow) := by decide
theorem test_mmc1_prg_bank :
    prgBanks (writes .chrRom [(0xE000, 1), (0xE000, 0), (0xE000, 0), (0xE000, 0), (0xE000, 0)]
      (mapperReset (.mmc1 Mmc1.reset) (bigCart 1))) 16 = [2, 3, 14, 15] := by decide
theorem test_mmc1_chr_and_mode :
    let m := writes .chrRom [(0xA000, 1), (0xA000, 1), (0xA000, 1), (0xA000, 0), (0xA000, 0), (0x8000, 1), (0x8000, 0),
      (0x8000, 0), (0x8000, 0), (0x8000, 1)] (mapperReset (.mmc1 Mmc1.reset) (bigCart 1))
    (prgBanks m 16, chrBanks m 8, m.mirroring) = ([0, 1, 2, 3], [4, 5, 6, 7, 0, 1, 2, 3], .singleHigh) := by decide
theorem test_mmc3_reset :
    let m := mapperReset (.mmc3 Mmc3.reset) (bigCart 8)
    (prgBanks m 16, chrBanks m 64, m.mirroring) = ([0, 1, 14, 15], [0, 1, 2, 3, 4, 5, 6, 7], .vertical) := by decide
theorem test_mmc3_banks :
    let m := writes .chrRom [(0x8000, 0x06), (0x8001, 0x05)] (mapperReset (.mmc3 Mmc3.reset) (bigCart 8))
    (prgBanks m 16, prgBanks (m.write .chrRom 0x8000 0x46) 16, chrBanks (m.write .chrRom 0x8000 0x80) 64) =
      ([5, 1, 14, 15], [14, 1, 5, 15], [4, 5, 6, 7, 0, 1, 2, 3]) := by decide
theorem test_uxrom_axrom :
    (prgBanks ((mapperReset .uxrom (bigCart 0)).write .chrRam 0x8000 3) 16,
      prgBanks ((mapperReset .axrom (bigCart 0)).write .chrRam 0x8000 0x11) 16,
      ((mapperReset .axrom (bigCart 0)).write .chrRam 0x8000 0x11).mirroring,
      chrBanks ((mapperReset .cnrom (bigCart 4)).write .chrRom 0x8000 6) 32) =
        ([6, 7, 14, 15], [4, 5, 6, 7], .singleHigh, [16, 17, 18, 19, 20, 21, 22, 23]) := by decide
theorem test_mmc3_irq_acknowledge :
    let s := { State.reset with irqLine := true, map := mapperReset (.mmc3 Mmc3.reset) (bigCart 8) }
    ((mapperWrite 0xE000 0 s).irqLine, (mapperWrite 0xE001 0 s).irqLine) = (false, true) := by decide
theorem test_mmc3_clock :
    let r : Mmc3 := { Mmc3.reset with irqLatch := 1, irqReload := true, irqEnabled := true }
    (r.asserts, r.clock.asserts, r.clock.clock.irqCounter) = (false, true, 0) := by decide
theorem test_controller :
    let p := (({ Pad.reset with input := 0x09 }.afterWrite 1).afterWrite 0)
    (p.bit, p.afterRead.bit, p.afterRead.afterRead.bit, p.afterRead.afterRead.afterRead.bit) =
      (true, false, false, true) := by decide
theorem test_header :
    let h := parseHeader [0x4E, 0x45, 0x53, 0x1A, 2, 1, 0, 8, 0, 1]
    (h.nes2, h.prgCount, h.chrCount, h.mapperId) = (true, 258, 1, 0) := by decide
theorem test_header_ines :
    let h := parseHeader [0x4E, 0x45, 0x53, 0x1A, 1, 1, 0x14, 0, 0, 0]
    (h.mapperId, h.trainer, h.mirroring, h.battery) = (1, true, .horizontal, false) := by decide
/-- The load error, none where the image loads. -/
def loadError (image : List Byte) : Option LoadError :=
  match load defaultConfig image with
  | .error e => some e
  | .ok _ => none
theorem test_load_errors :
    (loadError [0x4E], loadError [0x4E, 0x45, 0x53, 0x1B, 2, 1, 0, 0, 0, 0, 0, 0, 0, 0, 0, 0],
      loadError [0x4E, 0x45, 0x53, 0x1A, 2, 1, 0, 8, 0, 0xF0, 0, 0, 0, 0, 0, 0],
      loadError [0x4E, 0x45, 0x53, 0x1A, 0, 1, 0, 0, 0, 0, 0, 0, 0, 0, 0, 0],
      loadError [0x4E, 0x45, 0x53, 0x1A, 2, 1, 0x50, 0, 0, 0, 0, 0, 0, 0, 0, 0],
      loadError [0x4E, 0x45, 0x53, 0x1A, 2, 1, 1, 0, 0, 0, 0, 0, 0, 0, 0, 0]) =
        (some .badHeader, some .badHeader, some .badHeader, some .badHeader, some .unknownMapper, some .badHeader) := by
  decide
theorem test_power_on_is_reset : powerOn defaultConfig Cartridge.blank none PowerOn.zero = State.reset := by rfl
theorem test_save_file :
    (loadSave [0, 5, 6] 0 [(1, 9), (7, 9)], resetPrgRam (some [3]) [(1, 1)]) =
      ([(1, 5), (2, 6), (7, 9)], [(0, 3), (1, 1)]) := by decide


/-! ## Witnesses: concrete states and operands that meet the hypotheses of each obligation that has some -/

/-- `State.reset` inside a `runCycles(1)` call. -/
def inBatch : State := { State.reset with host := { State.reset.host with running := some 1 } }
/-- BRK at $0000, as `Decode` makes it from memory that nothing has written. -/
def brkOp : MicroOp := { addr := 0, opcode := 0, mode := .imp, kind := .brk, operand := 0, len := 1 }
/-- The same with the trace of its BRK cached. -/
def cached : State := { inBatch with cache := [(0, { first := brkOp, rest := [] })] }
/-- `State.reset` with another mapper variant. -/
def withVariant (v : Variant) : State := { State.reset with map := { MapperState.nromReset with variant := v } }
/-- `State.reset` with another value of v. -/
def withV (v : Scroll) : State := { State.reset with ppu := { Ppu.reset with v := v } }

theorem reset_canonical : State.reset.MemoriesCanonical := by constructor <;> rfl
theorem reset_windows : State.reset.WindowsFixed :=
  ⟨rfl, by decide, by decide, fun _ h => by injection h⟩
theorem reset_raster : State.reset.RasterInRange := ⟨by decide +kernel, by decide, by decide⟩
theorem cached_shaped : cached.CacheShaped := by
  refine ⟨trivial, fun e he => ?_, fun k i h => by injection h⟩
  have e0 : e = (0, { first := brkOp, rest := [] }) := by simpa [cached] using he
  subst e0
  refine ⟨by decide, fun m hm => ?_⟩
  have m0 : m = brkOp := by simpa [Trace.ops] using hm
  subst m0
  exact (by decide : (brkOp.kind, brkOp.mode) = opcodeEntry brkOp.opcode)
theorem cached_coherent : cached.TraceCoherent := by
  intro e he m hm
  have e0 : e = (0, { first := brkOp, rest := [] }) := by simpa [cached] using he
  subst e0
  have m0 : m = brkOp := by simpa [Trace.ops] using hm
  subst m0
  rfl
/-- A step goes on from `State.reset`, from the middle of a batch, and from a state with a cached trace. -/
theorem goes_on : State.reset.GoesOn ∧ inBatch.GoesOn ∧ cached.GoesOn := by
  have h : ∀ s : State, (got (step s) (fun _ => ())).isSome = true → s.GoesOn := by
    intro s h
    unfold State.GoesOn
    cases e : step s with
    | next t => exact ⟨t, rfl⟩
    | fault f => rw [e] at h; simp [got] at h
    | refused r => rw [e] at h; simp [got] at h
  exact ⟨h _ (by decide +kernel), h _ (by decide +kernel), h _ (by decide +kernel)⟩

/-- A fetch gives a micro-op with this property. -/
theorem fetches (s : State) (p : MicroOp → Bool)
    (h : (match fetch s with | .ok f => p f.op | .error _ => false) = true) : ∃ f, fetch s = .ok f ∧ p f.op = true := by
  cases e : fetch s with
  | ok f => rw [e] at h; exact ⟨f, rfl, h⟩
  | error r => rw [e] at h; simp at h
theorem cached_fetches : ∃ f, fetch cached = .ok f :=
  (fetches cached (fun _ => true) (by decide +kernel)).imp fun _ h => h.1

theorem witness_EncodeOfDecode : decode [0x8E, 0x00, 0x02, 0xEA] = .ok (.stxAbs 0x0200, [0xEA]) := by rfl
theorem witness_UndefinedOpcodesFault :
    (0x02 : Byte) ∈ undefinedOpcodes ∧ (0xFF : Byte) ∈ undefinedOpcodes ∧ (0xA9 : Byte) ∉ undefinedOpcodes := by decide
theorem witness_MicroOpsAssembleAndDispatch :
    (microOpOf 0 0xEA 0 0).len = 1 ∧ (microOpOf 0 0xA9 0xFF 0).len = 2 ∧ (microOpOf 0 0xAD 0xFF 0xFF).len = 3 ∧
      (microOpOf 0 0xA9 0xFF 0).kind ≠ .undefined ∧
      (let m : MicroOp := { goodOp with mode := .ind }
       m.kind ≠ .undefined ∧ m.instr = none) := by decide
theorem witness_CostOfEveryInstruction : ∃ t, exec .nop State.reset = .next t := ⟨_, rfl⟩
theorem witness_CpuAddressMap :
    defaultConfig.wf = true ∧ Config.wf { defaultConfig with ppuRegWindowEnd := 0x3FFF } = true ∧
      defaultConfig.ppuRegWindowEnd.toNat = 0x2FFF ∧
      [0x0000, 0x1FFF, 0x2000, 0x2FFF, 0x3000, 0x3FFF, 0x4000, 0x4013, 0x4014, 0x4015, 0x4016, 0x4017, 0x4018, 0x5FFF,
          0x6000, 0x7FFF, 0x8000, 0xFFFF].map (cpuRegion defaultConfig) =
        [.ram, .ram, .ppu, .ppu, .unmapped, .unmapped, .unmapped, .unmapped, .oamDma, .unmapped, .pad, .pad2, .unmapped,
          .unmapped, .prgRam, .prgRam, .prgRom, .prgRom] ∧
      0x8000 / 0x2000 = 4 + (0 : Fin 4).val ∧ 0xFFFF / 0x2000 = 4 + (3 : Fin 4).val ∧
      PpuReg.data ∈ [PpuReg.ctrl, .mask, .status, .oamAddr, .oamData, .scroll, .addr, .data][0x2FFF % 8]? := by
  decide +kernel
theorem witness_CpuReadsChangeOnlyDeviceState : peek State.reset 0x1FFF = some 0 := by decide +kernel
theorem witness_StoredByteReadsBack :
    State.reset.MemoriesCanonical ∧ State.reset.WindowsFixed ∧
      [(0x0000 : Word), 0x1FFF, 0x6000, 0x7FFF].all (fun a => a.toNat < 0x8000 && (peek State.reset a).isSome) = true :=
  ⟨reset_canonical, reset_windows, by decide +kernel⟩
theorem witness_WindowsResolveAfresh :
    (1 ≤ 1 ∧ bankIndex 1 (-1) = 0) ∧ 0x8000 ≤ (0x8000 : Word).toNat ∧ 0x8000 ≤ (0xFFFF : Word).toNat := by decide +kernel
theorem witness_PpuAddressMap :
    (0x0000 : VAddr).toNat / 0x400 = (0 : Fin 8).val ∧ (0x1FFF : VAddr).toNat / 0x400 = (7 : Fin 8).val ∧
      (0x2000 ≤ (0x2000 : VAddr).toNat ∧ (0x3EFF : VAddr).toNat < 0x3F00) ∧ 0x3F00 ≤ (0x3F00 : VAddr).toNat ∧
      0x3F00 ≤ (0x3FFF : VAddr).toNat := by decide
theorem witness_PpuRegisterWrites :
    State.reset.ppu.w = false ∧ ({ State.reset with ppu := { Ppu.reset with w := true } } : State).ppu.w = true := by decide
theorem witness_PpuDataPorts :
    [(0x0000 : Scroll), 0x3EFF, 0x4000, 0x7EFF].all (fun v => (withV v).ppu.busAddr.toNat < 0x3F00) = true ∧
      [(0x3F00 : Scroll), 0x3FFF, 0x7F00, 0x7FFF].all (fun v => 0x3F00 ≤ (withV v).ppu.busAddr.toNat) = true := by decide
theorem witness_OamDmaCopiesThePage :
    State.reset.oam.wf = true ∧
      (∀ d ∈ [(0x00 : Byte), 0x1F, 0x60, 0xFF],
        ∀ i < 256, peek State.reset (BitVec.ofNat 16 (d.toNat * 256 + i)) = some 0) := by
  refine ⟨rfl, ?_⟩
  decide +kernel
theorem witness_ToggleFollowsItsWrites :
    ((0x1F : Byte).toNat < 0x20 ∨ State.reset.config.ppuRegWindowEnd.toNat < (0x1F : Byte).toNat * 256) ∧
      ((0x30 : Byte).toNat < 0x20 ∨ State.reset.config.ppuRegWindowEnd.toNat < (0x30 : Byte).toNat * 256) ∧
      toggleWrites [.write .scroll 1, .read .status, .write .addr 2, .write .scroll 3, .read .data] = 2 := by decide
theorem witness_TickMovesTheRaster :
    State.reset.RasterInRange ∧
      ({ State.reset with ppu := { Ppu.reset with dot := 340 } } : State).RasterInRange :=
  ⟨reset_raster, by decide +kernel, by decide, by decide⟩
theorem witness_VblankTimelineFromReset :
    State.reset.config = defaultConfig ∧ State.reset.ppu.line = 261 ∧ State.reset.ppu.dot = 0 ∧ 2 ≤ 2 := by
  exact ⟨rfl, rfl, rfl, by decide⟩
theorem witness_VblankEvents :
    240 ≤ State.reset.config.vblankLine ∧ State.reset.config.vblankLine ≠ State.reset.config.prescanLine ∧
      ¬ (2 = 1 ∧ (241 = State.reset.config.vblankLine ∨ 241 = State.reset.config.prescanLine)) ∧
      ¬ (1 = 1 ∧ (240 = State.reset.config.vblankLine ∨ 240 = State.reset.config.prescanLine)) ∧
      ({ State.reset with nmiLine := true } : State).nmiLine = true := by decide
theorem witness_ScrollAndShiftRegisters :
    (0x001F : Scroll).toNat % 32 = 31 ∧ (0x001E : Scroll).toNat % 32 ≠ 31 ∧ (0x6FFF : Scroll).toNat / 0x1000 < 7 ∧
      ((0x73A0 : Scroll).toNat / 0x1000 = 7 ∧ (0x73A0 : Scroll).toNat / 0x20 % 0x20 = 29) ∧
      ((0x7FFF : Scroll).toNat / 0x1000 = 7 ∧ (0x7FFF : Scroll).toNat / 0x20 % 0x20 = 31) ∧
      ((0x73C0 : Scroll).toNat / 0x1000 = 7 ∧ (0x73C0 : Scroll).toNat / 0x20 % 0x20 ≠ 29 ∧
        (0x73C0 : Scroll).toNat / 0x20 % 0x20 ≠ 31) := by decide
theorem witness_PixelFormation :
    255 < 256 ∧ State.reset.ppu.mask.getLsbD 3 = false ∧ State.reset.ppu.mask.getLsbD 4 = false := by decide
theorem witness_RenderingLeavesTheRest :
    (∀ r, State.reset.map.variant ≠ .mmc3 r) ∧ (withVariant (.mmc3 Mmc3.reset)).map.variant = .mmc3 Mmc3.reset ∧
      State.reset.ppu.mask.getLsbD 3 = false ∧ State.reset.ppu.mask.getLsbD 4 = false :=
  ⟨fun _ h => by injection h, rfl, by decide, by decide⟩
theorem witness_DiscreteMappers :
    (withVariant .nrom).map.variant = .nrom ∧ (withVariant .uxrom).map.variant = .uxrom ∧
      (withVariant .cnrom).map.variant = .cnrom ∧ (withVariant .axrom).map.variant = .axrom ∧
      (withVariant .axrom).map.variant.number ≠ 4 := by decide
theorem witness_Mmc1SerialPort :
    0x8000 ≤ (0x8000 : Word).toNat ∧ 0x8000 ≤ (0xFFFF : Word).toNat ∧ (0x80 : Byte).getLsbD 7 = true ∧
      ((withVariant (.mmc1 Mmc1.reset)).map.variant = .mmc1 Mmc1.reset ∧ Mmc1.reset.count = 0 ∧
        ∀ d ∈ [(0x01 : Byte), 0x00, 0x7F, 0x00, 0x01], d.getLsbD 7 = false) ∧ 4 ≤ 4 := by decide
theorem witness_Mmc3Registers :
    (withVariant (.mmc3 Mmc3.reset)).map.variant = .mmc3 Mmc3.reset ∧
      [(0x8000 : Word), 0x9FFF, 0xA000, 0xBFFF, 0xC000, 0xDFFF, 0xE000, 0xFFFF].map
          (fun a => (a.toNat / 0x2000, a.toNat % 2)) =
        [(4, 0), (4, 1), (5, 0), (5, 1), (6, 0), (6, 1), (7, 0), (7, 1)] := by decide
theorem witness_Mmc3ScanlineCounter :
    (withVariant (.mmc3 Mmc3.reset)).map.variant = .mmc3 Mmc3.reset ∧
      (∀ N ∈ [1, 239], ∀ e ∈ [true, false],
        let r : Mmc3 := { Mmc3.reset with irqReload := true, irqLatch := BitVec.ofNat 8 N, irqEnabled := e }
        r.irqReload = true ∧ r.irqLatch.toNat = N ∧ r.irqEnabled = e ∧ 1 ≤ N ∧ N ≤ 239 ∧ 1 ≤ N + 1 ∧ N + 1 ≤ N + 1) := by
  decide
theorem witness_MapperResetMapsTheVector : 1 ≤ CartInfo.blank.prgCount ∧ 1 ≤ 1 := by decide
theorem witness_WhatNoStepChanges :
    cached.GoesOn ∧ cacheLookup cached.cache 0 = some { first := brkOp, rest := [] } ∧
      cached.map.variant.number ≠ 4 := ⟨goes_on.2.2, by decide, by decide⟩
theorem witness_StoringFormsFrame :
    State.reset.WindowsFixed ∧
      (⟨.staAbs 0x1FFF, 0x8D, 4, .abs 0x1FFF⟩ : Form MemOperand) ∈ storingForms 0 0x1FFF ∧
      (peek State.reset 0x2000 = none ∨ placeOf State.reset 0x2000 ≠ placeOf State.reset 0x1FFF) ∧
      placeOf State.reset 0x0000 ≠ placeOf State.reset 0x1FFF ∧ 0x6000 ≤ (0x7FFF : Word).toNat ∧
      (0x7FFF : Word).toNat < 0x8000 ∧ 0x8000 ≤ (0x8000 : Word).toNat :=
  ⟨reset_windows, by simp [storingForms, staForms], by decide +kernel, by decide +kernel, by decide, by decide, by decide⟩
/-- Every list of forms has a form: with the single forms in their statements they are the 151 rows of the table. -/
theorem witness_forms :
    ([ldaForms 0 0, ldxForms 0 0, ldyForms 0 0, adcForms 0 0, sbcForms 0 0, andForms 0 0, oraForms 0 0, eorForms 0 0,
        bitForms 0 0, cmpForms 0 0, cpxForms 0 0, cpyForms 0 0].map List.length =
      [8, 5, 5, 8, 8, 8, 8, 8, 2, 8, 3, 3]) ∧
    ([staForms 0 0, stxForms 0 0, styForms 0 0, incForms 0 0, decForms 0 0, aslForms 0 0, lsrForms 0 0, rolForms 0 0,
        rorForms 0 0].map List.length = [7, 3, 3, 4, 4, 4, 4, 4, 4]) ∧ (shiftForms 0 0).length = 16 := by decide
theorem witness_StackInstructions : State.reset.ram.wf = true ∧ 0x0200 ≠ 0x100 + State.reset.sp.toNat := by decide
theorem witness_JumpsAndSubroutines :
    (∃ t, exec (.jsr 0x1234) State.reset = .next t) ∧ State.reset.ram.wf = true ∧
      0x0200 ≠ 0x100 + State.reset.sp.toNat ∧ 0x0200 ≠ 0x100 + (State.reset.sp - 1).toNat :=
  ⟨⟨_, rfl⟩, by decide, by decide, by decide⟩
theorem witness_OnlyListedInstructionsChangeAFlag :
    (∃ t, exec .nop State.reset = .next t) ∧ (∃ t, exec .plp State.reset = .next t) ∧
      Instr.nop.kind ∉ [.adc, .sbc, .cmp, .cpx, .cpy, .asl, .lsr, .rol, .ror, .clc, .sec, .plp, .rti] ∧
      Instr.plp.kind ∈ [Kind.plp, .rti] := ⟨⟨_, rfl⟩, ⟨_, rfl⟩, by decide, by decide⟩
theorem witness_InterruptEntry :
    ({ State.reset with nmiLine := true } : State).nmiLine = true ∧
      (let s : State := { State.reset with irqLine := true, p := 0x20 }
       s.nmiLine = false ∧ s.irqLine = true ∧ s.p.getLsbD 2 = false ∧ s.config.irqServiced = true) ∧
      State.reset.ram.wf = true ∧
      (0 ≠ 0x100 + State.reset.sp.toNat ∧ 0 ≠ 0x100 + (State.reset.sp - 1).toNat ∧
        0 ≠ 0x100 + (State.reset.sp - 2).toNat) := by decide
theorem witness_StepRunsTheDecodedInstruction :
    cached.host.alive = true ∧ cached.host.running = some 1 ∧ cached.cycles < 1 ∧ interruptPending cached = false ∧
      cached.CacheShaped ∧ cached.TraceCoherent ∧
      decode [(memRead cached.pc cached).value, (memRead (cached.pc + 1) cached).value,
        (memRead (cached.pc + 2) cached).value] = .ok (.brk, [0, 0]) ∧ ∃ f, fetch cached = .ok f :=
  ⟨rfl, rfl, by decide, by decide, cached_shaped, cached_coherent, by rfl, cached_fetches⟩
/-- The refusal of a decoding, none where it succeeds. -/
def refusedAt (s : State) (a : Word) : Option Refusal :=
  match decodeAt s a with
  | .error r => some r
  | .ok _ => none
theorem witness_StepStops :
    ({ State.reset with host := { State.reset.host with alive := false } } : State).host.alive = false ∧
      (let s : State := { inBatch with pc := 0x5FFF }
       s.host.alive = true ∧ s.host.running = some 1 ∧ s.cycles < 1 ∧ interruptPending s = false ∧
         cursorOp s = none ∧ cacheLookup s.cache s.pc = none ∧ 0x2000 ≤ s.pc.toNat ∧ s.pc.toNat < 0x6000) ∧
      0x2000 ≤ (0x2000 : Word).toNat ∧
      (∃ f, fetch { inBatch with ram := [(0, 0x02)] } = .ok f ∧ f.op.kind = .undefined) ∧
      refusedAt State.reset 0x5FFF = some (.fetchOutsideMemory 0x5FFF) ∧
      refusedAt { State.reset with ram := [(0x7FF, 0xA9)] } 0x1FFF = some (.fetchOutsideMemory 0x2000) ∧
      refusedAt { State.reset with ram := [(0x7FE, 0xAD)] } 0x1FFE = some (.fetchOutsideMemory 0x2000) := by
  refine ⟨rfl, by decide, by decide, ?_, by decide, by decide, by decide⟩
  have h := fetches { inBatch with ram := [(0, 0x02)] } (fun m => m.kind = .undefined) (by decide +kernel)
  obtain ⟨f, hf, hk⟩ := h
  exact ⟨f, hf, by simpa using hk⟩
theorem witness_CacheIsTransparent : cached.CacheShaped ∧ cached.TraceCoherent ∧ ∃ f, fetch cached = .ok f :=
  ⟨cached_shaped, cached_coherent, cached_fetches⟩
theorem witness_StepKeepsMemoriesCanonical : State.reset.MemoriesCanonical ∧ State.reset.GoesOn :=
  ⟨reset_canonical, goes_on.1⟩
theorem witness_StepKeepsMemoriesSized :
    State.reset.MemoriesSized ∧ State.reset.ColoursNarrow ∧ State.reset.GoesOn := by
  refine ⟨by constructor <;> rfl, ?_, goes_on.1⟩
  constructor <;> intro c hc <;> exact absurd hc (by simp [State.reset])
theorem witness_StepKeepsStatusRasterAndWindows :
    State.reset.GoesOn ∧ State.reset.StatusFixed ∧ State.reset.RasterInRange ∧ State.reset.WindowsFixed :=
  ⟨goes_on.1, ⟨by decide, by decide⟩, reset_raster, reset_windows⟩
theorem witness_StepKeepsTheCacheShape : cached.CacheShaped ∧ cached.GoesOn := ⟨cached_shaped, goes_on.2.2⟩
theorem witness_PowerOnResetValues :
    PowerOn.zero.prgRam.wf = true ∧ (none : Option (List Byte)) = none ∧ some [(1 : Byte)] = some [1] ∧ 8191 < 8192 := by
  exact ⟨rfl, rfl, rfl, by decide⟩
/-- The header of an image with 16 KB of PRG-ROM and CHR-RAM meets every check of `Load`, and the image is long enough. -/
theorem witness_LoadChecksTheImage :
    let h := ([0x4E, 0x45, 0x53, 0x1A, 1, 0, 0, 0, 0, 0, 0, 0, 0, 0, 0, 0] : List Byte) ++ List.replicate 16384 0
    h.length = 16 + 16384 ∧ magicOk h = true ∧ exponentForm h = false ∧ (parseHeader h).prgCount = 1 ∧
      (parseHeader h).mapperId = 0 ∧ 0 ∈ defaultConfig.supportedMappers ∧ (parseHeader h).imageLength = 16 + 16384 := by
  refine ⟨?_, rfl, rfl, rfl, rfl, by decide, rfl⟩
  simp only [List.length_append, List.length_replicate]
  rfl
/-- The byte k of an image, as the statement about `Load` reads it. -/
def headerByte (h : List Byte) (k : Nat) : Nat := (h.getD k 0).toNat
/-- A header of the given bytes 3 to 9. -/
def header (b3 b4 b5 b6 b7 b8 b9 : Byte) : List Byte :=
  [0x4E, 0x45, 0x53, b3, b4, b5, b6, b7, b8, b9, 0, 0, 0, 0, 0, 0]
/-- The image that each error branch of `Load` is about, in the order of the checks; the second of the mapper check has
a number among the supported ones that no variant has (log entry 16). -/
theorem witness_LoadChecksTheImage_errors :
    ((header 0x1A 1 0 0 0 0 0).take 15).length < 16 ∧ headerByte (header 0x1B 1 0 0 0 0 0) 3 ≠ 0x1A ∧
      (headerByte (header 0x1A 1 0 0 8 0 0xF0) 7 / 4 % 4 = 2 ∧ headerByte (header 0x1A 1 0 0 8 0 0xF0) 9 / 16 = 15) ∧
      (headerByte (header 0x1A 1 0 0 8 0 0x0F) 7 / 4 % 4 = 2 ∧ headerByte (header 0x1A 1 0 0 8 0 0x0F) 9 % 16 = 15) ∧
      headerByte (header 0x1A 0 0 0 0 0 0) 4 = 0 ∧
      (headerByte (header 0x1A 1 0 0x50 0 0 0) 6 / 16 = 5 ∧ 5 ∉ defaultConfig.supportedMappers) ∧
      (5 ∈ ({ defaultConfig with supportedMappers := [5] } : Config).supportedMappers ∧ 5 ∉ [0, 1, 2, 3, 4, 7]) ∧
      (header 0x1A 1 0 4 0 0 0).length < 16 + 512 + 16384 * 1 + 8192 * 0 := by decide
theorem test_load_error_branches :
    load defaultConfig ((header 0x1A 1 0 0 0 0 0).take 15) = .error .badHeader ∧
      load defaultConfig (header 0x1A 1 0 0 8 0 0x0F) = .error .badHeader ∧
      load { defaultConfig with supportedMappers := [5] } (header 0x1A 1 0 0x50 0 0 0) = .error .unknownMapper ∧
      load { defaultConfig with supportedMappers := [] } (header 0x1A 1 0 0 0 0 0) = .error .unknownMapper ∧
      load defaultConfig (header 0x1A 1 0 4 0 0 0) = .error .badHeader := ⟨rfl, rfl, rfl, rfl, rfl⟩
theorem cpu_goes_on : ∃ t, cpuStep inBatch = .next t := by
  have h : (got (cpuStep inBatch) (fun _ => ())).isSome = true := by decide +kernel
  cases e : cpuStep inBatch with
  | next t => exact ⟨t, rfl⟩
  | fault f => rw [e] at h; simp [got] at h
  | refused r => rw [e] at h; simp [got] at h
theorem witness_HostCallsDoWhatTheyName :
    State.reset.host.alive = true ∧ State.reset.host.running = none ∧ State.reset.host.save = none ∧
      (HostPort.fresh (some [1])).save = some [1] ∧ (0 : Int) ≤ 0 ∧ 0 < 1 ∧
      PpuReg.status ∈ [PpuReg.ctrl, .mask, .status, .oamAddr, .oamData, .scroll, .addr, .data][(0xFA : Byte).toNat % 8]? ∧
      (inBatch.host.alive = true ∧ inBatch.host.running = some 1 ∧ inBatch.cycles < 1 ∧
        ∃ t, cpuStep inBatch = .next t) := by
  exact ⟨rfl, rfl, rfl, rfl, by decide, by decide, by decide, rfl, rfl, by decide, cpu_goes_on⟩

end Sys2Proof.Tests
end

/-! # Proofs: what no step changes (00_scope)

`StepFrame` is what a step leaves as it was. It is reflexive and transitive, so it is proved once for each operation a step
is made of (bus reads and writes, moves of an instruction, a fetch, the dots) and then put together along the cases of a
CPU step, of a round and of a host call. -/

namespace Sys2Proof.Machine

/-- What no step changes: the parameters, the header, the ROMs and the mapper's tag; a cached trace stays cached; and the
IRQ line stays as it is unless the mapper is MMC3 (51_cartridge_mapper R700, R750; 31_decode_cache_and_run R307). -/
structure StepFrame (s t : State) : Prop where
  config : t.config = s.config
  cart : t.cart = s.cart
  prgRom : t.prgRom = s.prgRom
  chrRom : t.chrRom = s.chrRom
  number : t.map.variant.number = s.map.variant.number
  traces : ∀ k tr, cacheLookup s.cache k = some tr → cacheLookup t.cache k = some tr
  irqLine : s.map.variant.number ≠ 4 → t.irqLine = s.irqLine

/-- A change of none of the fields the frame speaks of. -/
theorem StepFrame.same {s t : State} (config : t.config = s.config := by rfl) (cart : t.cart = s.cart := by rfl)
    (prgRom : t.prgRom = s.prgRom := by rfl) (chrRom : t.chrRom = s.chrRom := by rfl) (map : t.map = s.map := by rfl)
    (cache : t.cache = s.cache := by rfl) (irqLine : t.irqLine = s.irqLine := by rfl) : StepFrame s t where
  config := config
  cart := cart
  prgRom := prgRom
  chrRom := chrRom
  number := by rw [map]
  traces := fun _ _ h => by rw [cache]; exact h
  irqLine := fun _ => irqLine

theorem StepFrame.refl (s : State) : StepFrame s s := .same

theorem StepFrame.trans {s t u : State} (h : StepFrame s t) (k : StepFrame t u) : StepFrame s u where
  config := k.config.trans h.config
  cart := k.cart.trans h.cart
  prgRom := k.prgRom.trans h.prgRom
  chrRom := k.chrRom.trans h.chrRom
  number := k.number.trans h.number
  traces := fun j tr e => k.traces j tr (h.traces j tr e)
  irqLine := fun n => (k.irqLine (by rw [h.number]; exact n)).trans (h.irqLine n)

/-! ## Reads and writes -/

theorem OnlyRead.stepFrame {s t : State} (h : OnlyRead s t) : StepFrame s t :=
  .same h.config h.cart h.prgRom h.chrRom h.map h.cache h.irqLine

/-- A window into a ROM segment ignores a write, one into RAM changes only that RAM (20_memory R153). -/
theorem windowWrite_stepFrame (w : Window) (a : Nat) (d : Byte) (s : State) : StepFrame s (windowWrite w a d s) := by
  unfold windowWrite
  split <;> exact .same

theorem vWrite_stepFrame (a : VAddr) (d : Byte) (s : State) : StepFrame s (vWrite a d s) := by
  rw [vWrite]
  split_ifs
  · exact windowWrite_stepFrame _ _ d s
  · exact .same
  · exact .same

theorem ppuRegWrite_stepFrame (r : PpuReg) (d : Byte) (s : State) : StepFrame s (ppuRegWrite r d s) := by
  cases r
  case data => exact (vWrite_stepFrame _ d s).trans .same
  case scroll => rw [ppuRegWrite, scrollWrite]; split <;> exact .same
  case addr => rw [ppuRegWrite, addrWrite]; split <;> exact .same
  all_goals exact .same

/-- A mapper register write keeps the tag, and only MMC3's can clear the IRQ line (51_cartridge_mapper R700, R750). -/
theorem mapperWrite_stepFrame (a : Word) (d : Byte) (s : State) : StepFrame s (mapperWrite a d s) where
  config := rfl
  cart := rfl
  prgRom := rfl
  chrRom := rfl
  number := (write_variant s.cart.chrSegment a d s.map).1
  traces := fun _ _ h => h
  irqLine := lineAfterWrite_other s.map a s.irqLine

theorem dmaFrom_stepFrame (page : Byte) (n : Nat) (s : State) : StepFrame s (dmaFrom page n s) := by
  induction n generalizing s with
  | zero => exact .refl s
  | succ n ih =>
    have byte : StepFrame s (dmaByte page (256 - (n + 1)) s) := (memRead_onlyRead _ s).stepFrame.trans .same
    exact byte.trans (ih _)

theorem memWrite_stepFrame (a : Word) (d : Byte) (s : State) : StepFrame s (memWrite a d s) := by
  unfold memWrite
  split
  case h_2 => exact ppuRegWrite_stepFrame _ d s
  case h_3 => exact (dmaFrom_stepFrame d 256 s).trans .same
  case h_7 => exact windowWrite_stepFrame _ _ d s
  case h_8 => exact mapperWrite_stepFrame a d s
  all_goals exact .same

/-! ## Instructions, interrupt entries and fetches -/

theorem Move.stepFrame {s t : State} (m : Move s t) : StepFrame s t := by
  cases m with
  | read a => exact (memRead_onlyRead a s).stepFrame
  | write a d => exact memWrite_stepFrame a d s
  | reg r v => cases r <;> exact .same
  | status v _ => exact .same
  | pc v => exact .same
  | cycles v => exact .same

theorem Moves.stepFrame {s t : State} (h : Moves s t) : StepFrame s t :=
  h.keeps (P := StepFrame s) (fun _ _ m k => k.trans m.stepFrame) (.refl s)

theorem exec_stepFrame {i : Instr} {s t : State} (h : exec i s = .next t) : StepFrame s t := by
  obtain ⟨u, hu, runs⟩ := exec_runs i s
  rw [hu] at h
  injection h with h
  exact h ▸ runs.moves.stepFrame

theorem setCur_stepFrame (s : State) (c : Option (Word × Nat)) : StepFrame s (s.setCur c) := .same

theorem setNmiLine_stepFrame (s : State) (v : Bool) : StepFrame s (s.setNmiLine v) := .same

theorem charge_stepFrame (n : Nat) (s : State) : StepFrame s (charge n s) := .same

theorem takeException_stepFrame (ret : Word) (status : Byte) (v : Word) (s : State) :
    StepFrame s (takeException ret status v s) := (takeException_moves ret status v s).stepFrame

theorem enterNmi_stepFrame (s : State) : StepFrame s (enterNmi s) :=
  ((setNmiLine_stepFrame s false).trans (takeException_stepFrame _ _ _ _)).trans (setCur_stepFrame _ none)

theorem enterIrq_stepFrame (s : State) : StepFrame s (enterIrq s) :=
  (takeException_stepFrame _ _ _ s).trans (setCur_stepFrame _ none)

theorem enterInterrupt_stepFrame (s : State) : StepFrame s (enterInterrupt s) := by
  rw [enterInterrupt]
  refine StepFrame.trans ?_ (charge_stepFrame 7 _)
  split
  · exact enterNmi_stepFrame s
  · exact enterIrq_stepFrame s

/-- Inserting a trace at a key that has none hides no cached trace (31_decode_cache_and_run R307). -/
theorem cacheLookup_insert_of_some {c : List (Word × Trace)} {k j : Word} {t u : Trace} (hk : cacheLookup c k = none)
    (hj : cacheLookup c j = some u) : cacheLookup (cacheInsert c k t) j = some u := by
  have ne : j ≠ k := by
    rintro rfl
    rw [hk] at hj
    cases hj
  rw [cacheLookup_insert c k j t hk, if_neg ne, hj]

theorem traceAtPc_stepFrame {s u : State} {tr : Trace} (h : traceAtPc s = .ok (tr, u)) : StepFrame s u := by
  unfold traceAtPc at h
  split at h
  case h_1 => cases h; exact .refl s
  case h_2 miss =>
    split at h
    · cases h
    · cases h
      exact { StepFrame.refl s with traces := fun _ _ e => cacheLookup_insert_of_some miss e }

theorem fetch_stepFrame {s : State} {f : FetchOut} (h : fetch s = .ok f) : StepFrame s f.state := by
  unfold fetch at h
  split at h
  · cases h; exact .refl s
  · split at h
    · cases h
    · rename_i found
      cases h
      exact (traceAtPc_stepFrame found).trans .same

theorem cpuStep_stepFrame {s t : State} (h : cpuStep s = .next t) : StepFrame s t := by
  obtain ⟨-, rfl⟩ | ⟨-, f, i, u, hf, -, -, hx, rfl⟩ := cpuStep_cases h
  · exact enterInterrupt_stepFrame s
  · exact ((fetch_stepFrame hf).trans (exec_stepFrame hx)).trans .same

/-! ## The dots, a round and a host call -/

/-- A dot changes the IRQ line on MMC3 alone, by the mapper's monitor (50_ppu R640, 51_cartridge_mapper R750). -/
theorem OnlyDrawn.stepFrame {s t : State} (h : OnlyDrawn s t) : StepFrame s t where
  config := by rw [h.rest]
  cart := by rw [h.rest]
  prgRom := by rw [h.rest]
  chrRom := by rw [h.rest]
  number := h.number
  traces := fun _ _ e => by rw [h.rest]; exact e
  irqLine := fun n => (h.other n).2

theorem endRun_stepFrame (s : State) : StepFrame s (endRun s) :=
  (StepFrame.same (t := s.setHost { s.host with running := none })).trans ((tick_onlyDrawn _ _).stepFrame.trans .same)

theorem closeRun_stepFrame (n : Nat) (s : State) : StepFrame s (closeRun n s) := by
  rw [closeRun]
  split
  · exact .refl s
  · exact endRun_stepFrame s

theorem runRound_stepFrame {n : Nat} {s t : State} (h : runRound n s = .next t) : StepFrame s t := by
  obtain ⟨-, u, hu, rfl⟩ | ⟨-, rfl⟩ := runRound_cases h
  · exact (cpuStep_stepFrame hu).trans (closeRun_stepFrame n u)
  · exact endRun_stepFrame s

theorem hostSyncSave_stepFrame (s : State) : StepFrame s (hostSyncSave s) := by
  unfold hostSyncSave
  split <;> exact .same

theorem serve_stepFrame {c : HostCall} {s t : State} (h : serve c s = .next t) : StepFrame s t := by
  cases c with
  | runCycles n => exact (StepFrame.same (t := startRun n.toNat s)).trans (runRound_stepFrame h)
  | regRead r => cases h; exact (ppuRegRead_onlyRead _ s).stepFrame.trans .same
  | regWrite r v => cases h; exact ppuRegWrite_stepFrame _ v s
  | setInput b => cases h; exact .same
  | syncSave => cases h; exact hostSyncSave_stepFrame s
  | destroy => cases h; exact .same

theorem nextCall_stepFrame (s : State) : StepFrame s (nextCall s).2 := by
  unfold nextCall
  split <;> exact .same

theorem step_stepFrame {s t : State} (h : step s = .next t) : StepFrame s t := by
  unfold step stepMachine at h
  split at h
  · cases h
  · split at h
    · exact runRound_stepFrame h
    · exact (nextCall_stepFrame s).trans (serve_stepFrame h)

/-- Settles O31: every step stays within `StepFrame`. -/
theorem whatNoStepChanges : Obligations.WhatNoStepChanges := by
  intro s t h
  have frame := step_stepFrame h
  exact ⟨frame.config, frame.cart, frame.prgRom, frame.chrRom, frame.number, frame.traces, frame.irqLine⟩

end Sys2Proof.Machine

/-! # Proofs: what every step keeps of the state (10_state)

A step is a sequence of `Change`s. For the memories, each change is a sequence of stores of one byte, and a store keeps the
canonical form and the sizes. For the status bits, the raster and the windows, `KeepsRegInv` is proved of each change. The
flags are a matter of one instruction: `flagsWritten` is the table of R55 read by instruction, and `exec_writesFlags` proves
it of every constructor. -/

namespace Sys2Proof.Machine

/-! ## A step as stores in memories -/

theorem Move.stores {s t : State} (m : Move s t) : Stores s t := by
  cases m with
  | read a => exact (memRead_onlyRead a s).stores
  | write a d => exact memWrite_stores a d s
  | reg r v => cases r <;> exact .same (by constructor <;> rfl)
  | status | pc | cycles => exact .same (by constructor <;> rfl)

theorem Change.stores {s t : State} (c : Change s t) : Stores s t := by
  cases c with
  | move _ m => exact m.stores
  | regRead r => exact (ppuRegRead_onlyRead r s).stores
  | regWrite r d => exact ppuRegWrite_stores r d s
  | dot => exact dot_stores s
  | nmi | cache | cur | host | input => exact .same (by constructor <;> rfl)

/-- Whatever a step does to memory is stores of single bytes inside the memories (10_state R59). -/
theorem step_stores {s t : State} (h : step s = .next t) : Stores s t :=
  (step_changes h).keeps (P := Stores s) (fun _ _ c k => k.trans c.stores) (.refl s)

/-- Settles O52: a step is stores, and each of them keeps the canonical form. -/
theorem stepKeepsMemoriesCanonical : Obligations.StepKeepsMemoriesCanonical := by
  intro s t canonical h
  exact (step_stores h).keeps (fun _ _ store => store.canonical) canonical

/-- Settles O53: a step is stores, each at an address inside its memory, with six bits in the palette and the frame. -/
theorem stepKeepsMemoriesSized : Obligations.StepKeepsMemoriesSized := by
  intro s t sized narrow h
  have stores := step_stores h
  exact ⟨stores.keeps (fun _ _ store => store.sized) sized, stores.keeps (fun _ _ store => store.narrow) narrow⟩

/-! ## The status bits, the raster and the windows -/

/-- From s to t the fixed status bits stay fixed (10_state R54), the raster stays in range (50_ppu R640), and the windows
stay in their segments (51_cartridge_mapper R712). -/
structure KeepsRegInv (s t : State) : Prop where
  status : s.StatusFixed → t.StatusFixed
  raster : s.RasterInRange → t.RasterInRange
  windows : s.WindowsFixed → t.WindowsFixed

/-- A change of none of the fields that the three speak of. -/
theorem KeepsRegInv.same {s t : State} (p : t.p = s.p := by rfl) (config : t.config = s.config := by rfl)
    (line : t.ppu.line = s.ppu.line := by rfl) (dot : t.ppu.dot = s.ppu.dot := by rfl) (cart : t.cart = s.cart := by rfl)
    (map : t.map = s.map := by rfl) : KeepsRegInv s t where
  status := by rw [State.StatusFixed, State.StatusFixed, p]; exact id
  raster := by rw [State.RasterInRange, State.RasterInRange, config, line, dot]; exact id
  windows := fun w => ⟨map ▸ w.prg3, map ▸ w.prg, by rw [map, cart]; exact w.chr, map ▸ w.count⟩

theorem KeepsRegInv.refl (s : State) : KeepsRegInv s s := .same

theorem KeepsRegInv.trans {s t u : State} (h : KeepsRegInv s t) (k : KeepsRegInv t u) : KeepsRegInv s u :=
  ⟨k.status ∘ h.status, k.raster ∘ h.raster, k.windows ∘ h.windows⟩

theorem OnlyRead.keepsRegInv {s t : State} (h : OnlyRead s t) : KeepsRegInv s t :=
  .same h.p h.config (by rw [h.ppu]) (by rw [h.ppu]) h.cart h.map

/-! ### Writes -/

theorem windowWrite_keepsRegInv (w : Window) (a : Nat) (d : Byte) (s : State) :
    KeepsRegInv s (windowWrite w a d s) := by
  unfold windowWrite
  split <;> exact .same

theorem vWrite_keepsRegInv (a : VAddr) (d : Byte) (s : State) : KeepsRegInv s (vWrite a d s) := by
  rw [vWrite]
  split_ifs
  · exact windowWrite_keepsRegInv _ _ d s
  · exact .same
  · exact .same

/-- A store on the PPU bus leaves the PPU's registers alone (20_memory R159). -/
theorem vWrite_ppu (a : VAddr) (d : Byte) (s : State) : (vWrite a d s).ppu = s.ppu := by
  rw [vWrite]
  split_ifs
  · unfold windowWrite
    split <;> rfl
  · rfl
  · rfl

theorem ppuRegWrite_keepsRegInv (r : PpuReg) (d : Byte) (s : State) : KeepsRegInv s (ppuRegWrite r d s) := by
  cases r
  case data =>
    exact (vWrite_keepsRegInv _ d s).trans (.same (line := by rw [vWrite_ppu]; rfl) (dot := by rw [vWrite_ppu]; rfl))
  case scroll => rw [ppuRegWrite, scrollWrite]; split <;> exact .same
  case addr => rw [ppuRegWrite, addrWrite]; split <;> exact .same
  all_goals exact .same

/-- The windows of the state are those of its mapper state, with MMC1's count beside them. -/
theorem windowsFixed_iff (s : State) :
    s.WindowsFixed ↔ WindowsIn s.cart.chrSegment s.map ∧ ∀ r, s.map.variant = .mmc1 r → r.count ≤ 4 :=
  ⟨fun w => ⟨⟨w.prg3, w.prg, w.chr⟩, w.count⟩, fun w => ⟨w.1.prg3, w.1.prg, w.1.chr, w.2⟩⟩

theorem mapperWrite_keepsRegInv (a : Word) (d : Byte) (s : State) : KeepsRegInv s (mapperWrite a d s) where
  status := id
  raster := id
  windows := by
    rw [windowsFixed_iff, windowsFixed_iff]
    exact fun ⟨windows, count⟩ => ⟨write_windowsIn windows a d, (write_variant _ a d s.map).2 count⟩

theorem dmaFrom_keepsRegInv (page : Byte) (n : Nat) (s : State) : KeepsRegInv s (dmaFrom page n s) := by
  induction n generalizing s with
  | zero => exact .refl s
  | succ n ih =>
    have byte : KeepsRegInv s (dmaByte page (256 - (n + 1)) s) := (memRead_onlyRead _ s).keepsRegInv.trans .same
    exact byte.trans (ih _)

theorem memWrite_keepsRegInv (a : Word) (d : Byte) (s : State) : KeepsRegInv s (memWrite a d s) := by
  unfold memWrite
  split
  case h_2 => exact ppuRegWrite_keepsRegInv _ d s
  case h_3 => exact (dmaFrom_keepsRegInv d 256 s).trans .same
  case h_7 => exact windowWrite_keepsRegInv _ _ d s
  case h_8 => exact mapperWrite_keepsRegInv a d s
  all_goals exact .same

/-! ### Dots -/

/-- The flag events leave the raster counters alone (50_ppu R624 step 3). -/
theorem flagDot_raster (L D : Nat) (s : State) :
    (flagDot L D s).ppu.line = s.ppu.line ∧ (flagDot L D s).ppu.dot = s.ppu.dot := by
  rw [flagDot]
  split_ifs <;> exact ⟨rfl, rfl⟩

theorem dotActions_raster (L D : Nat) (s : State) :
    (dotActions L D s).ppu.line = s.ppu.line ∧ (dotActions L D s).ppu.dot = s.ppu.dot := by
  obtain ⟨t, quiet, -, e⟩ := dotActions_eq L D s
  rw [e, (flagDot_raster L D t).1, (flagDot_raster L D t).2]
  exact ⟨quiet.line, quiet.dot⟩

/-- The counters wrap at the end of a line and of a frame (50_ppu R621). -/
theorem advanced_inRange {p : Ppu} {c : Config} (line : p.line < c.linesPerFrame) (dot : p.dot < c.dotsPerLine) :
    (p.advanced c).line < c.linesPerFrame ∧ (p.advanced c).dot < c.dotsPerLine := by
  rw [Ppu.advanced]
  split
  · exact ⟨Nat.mod_lt _ (Nat.zero_lt_of_lt line), Nat.zero_lt_of_lt dot⟩
  · exact ⟨line, by show p.dot + 1 < _; omega⟩

theorem dot_rasterInRange {s : State} (h : s.RasterInRange) : (dot s).RasterInRange := by
  obtain ⟨wf, line, dot⟩ := h
  have config : (dotActions s.ppu.line s.ppu.dot s).config = s.config := by rw [(dotActions_onlyDrawn _ _ s).rest]
  obtain ⟨sameLine, sameDot⟩ := dotActions_raster s.ppu.line s.ppu.dot s
  have advanced := advanced_inRange (sameLine.trans_lt line) (sameDot.trans_lt dot)
  rw [← config] at wf advanced
  exact ⟨wf, advanced⟩

/-- A dot changes no window, and the variant's own state only where the variant is MMC3 (51_cartridge_mapper R741). -/
theorem OnlyDrawn.windowsFixed {s t : State} (h : OnlyDrawn s t) (w : s.WindowsFixed) : t.WindowsFixed := by
  have cart : t.cart = s.cart := by rw [h.rest]
  refine ⟨?_, ?_, ?_, fun r e => ?_⟩
  · rw [h.map]; exact w.prg3
  · rw [h.map]; exact w.prg
  · rw [h.map, cart]; exact w.chr
  · have mmc1 : s.map.variant.number = 1 := by rw [← h.number, e]; rfl
    have same : t.map = s.map := (h.other (by rw [mmc1]; decide)).1
    exact w.count r (same ▸ e)

theorem dot_keepsRegInv (s : State) : KeepsRegInv s (dot s) where
  status := by
    have p : (dot s).p = s.p := by rw [(dot_onlyDrawn s).rest]
    rw [State.StatusFixed, State.StatusFixed, p]
    exact id
  raster := dot_rasterInRange
  windows := (dot_onlyDrawn s).windowsFixed

/-! ### Every change of a step -/

/-- A new P keeps the fixed bits, since it has those of the old P or the values a restore forces (10_state R54). -/
theorem setP_keepsRegInv {s : State} {v : Byte}
    (h : KeepsFixed s.p v ∨ (flagB v = false ∧ flagU v = true)) : KeepsRegInv s (s.setP v) where
  status := fun ⟨b, u⟩ => by
    obtain ⟨keptB, keptU⟩ | forced := h
    · exact ⟨keptB.trans b, keptU.trans u⟩
    · exact forced
  raster := id
  windows := fun w => ⟨w.prg3, w.prg, w.chr, w.count⟩

theorem Move.keepsRegInv {s t : State} (m : Move s t) : KeepsRegInv s t := by
  cases m with
  | read a => exact (memRead_onlyRead a s).keepsRegInv
  | write a d => exact memWrite_keepsRegInv a d s
  | reg r v => cases r <;> exact .same
  | status v h => exact setP_keepsRegInv h
  | pc | cycles => exact .same

theorem Change.keepsRegInv {s t : State} (c : Change s t) : KeepsRegInv s t := by
  cases c with
  | move _ m => exact m.keepsRegInv
  | regRead r => exact (ppuRegRead_onlyRead r s).keepsRegInv
  | regWrite r d => exact ppuRegWrite_keepsRegInv r d s
  | dot => exact dot_keepsRegInv s
  | nmi | cache | cur | host | input => exact .same

/-- Settles O54: every change that a step is made of keeps the three. -/
theorem stepKeepsStatusRasterAndWindows : Obligations.StepKeepsStatusRasterAndWindows := by
  intro s t h
  have kept : KeepsRegInv s t :=
    (step_changes h).keeps (P := KeepsRegInv s) (fun _ _ c k => k.trans c.keepsRegInv) (.refl s)
  exact ⟨kept.status, kept.raster, kept.windows⟩

/-! ## The flags an instruction writes -/

/-- The table of 10_state R55 read by instruction: the bits of P that an instruction of a kind writes. PLP and RTI write the
whole byte. -/
def flagsWritten : Kind → List Nat
  | .adc | .sbc => [0, 1, 6, 7]
  | .cmp | .cpx | .cpy | .asl | .lsr | .rol | .ror => [0, 1, 7]
  | .lda | .ldx | .ldy | .tax | .tay | .txa | .tya | .tsx | .pla | .and | .ora | .eor | .inc | .dec | .inx | .iny | .dex
  | .dey => [1, 7]
  | .bit => [1, 6, 7]
  | .clc | .sec => [0]
  | .cli | .sei | .brk => [2]
  | .cld | .sed => [3]
  | .clv => [6]
  | .plp | .rti => [0, 1, 2, 3, 4, 5, 6, 7]
  | _ => []

/-- The rows of 10_state R55: a kind that is in no row of a flag does not have the flag's bit in its list. -/
theorem flagsWritten_rows (k : Kind) :
    (k ∉ [.adc, .sbc, .cmp, .cpx, .cpy, .asl, .lsr, .rol, .ror, .clc, .sec, .plp, .rti] → 0 ∉ flagsWritten k) ∧
    (k ∉ [.lda, .ldx, .ldy, .tax, .tay, .txa, .tya, .tsx, .pla, .adc, .sbc, .and, .ora, .eor, .bit, .cmp, .cpx, .cpy,
        .inc, .dec, .inx, .iny, .dex, .dey, .asl, .lsr, .rol, .ror, .plp, .rti] →
      1 ∉ flagsWritten k ∧ 7 ∉ flagsWritten k) ∧
    (k ∉ [.adc, .sbc, .bit, .clv, .plp, .rti] → 6 ∉ flagsWritten k) ∧
    (k ∉ [.sei, .cli, .plp, .rti, .brk] → 2 ∉ flagsWritten k) ∧
    (k ∉ [.sed, .cld, .plp, .rti] → 3 ∉ flagsWritten k) ∧
    (k ∉ [.plp, .rti] → 4 ∉ flagsWritten k ∧ 5 ∉ flagsWritten k) := by
  cases k <;> decide

/-! ### The flag computations -/

theorem OtherFlagsKept.refl (p : Byte) (w : List Nat) : OtherFlagsKept p p w := fun _ _ _ => rfl

/-- With every bit listed nothing is claimed. -/
theorem otherFlagsKept_all (p q : Byte) : OtherFlagsKept p q [0, 1, 2, 3, 4, 5, 6, 7] := by
  have listed : ∀ i < 8, i ∈ [0, 1, 2, 3, 4, 5, 6, 7] := by decide
  exact fun i hi n => absurd (listed i hi) n

theorem setBit_otherFlagsKept {p q : Byte} {w : List Nat} (h : OtherFlagsKept p q w) (i : Nat) (b : Bool) (hi : i < 8)
    (hw : i ∈ w) : OtherFlagsKept p (setBit q i b) w := by
  intro j hj n
  have ne : j ≠ i := fun e => n (e ▸ hw)
  rw [setBit_getLsbD q b i j hi hj, if_neg ne]
  exact h j hj n

theorem setNZ_otherFlagsKept {p q : Byte} {w : List Nat} (h : OtherFlagsKept p q w) (r : Byte) (h1 : 1 ∈ w) (h7 : 7 ∈ w) :
    OtherFlagsKept p (setNZ q r) w :=
  setBit_otherFlagsKept (setBit_otherFlagsKept h 1 _ (by decide) h1) 7 _ (by decide) h7

theorem setNZ_writes (p r : Byte) : OtherFlagsKept p (setNZ p r) [1, 7] :=
  setNZ_otherFlagsKept (.refl p _) r (by decide) (by decide)

theorem setBit_writes (p : Byte) (i : Nat) (b : Bool) (hi : i < 8) : OtherFlagsKept p (setBit p i b) [i] :=
  setBit_otherFlagsKept (.refl p _) i b hi (List.mem_singleton_self i)

theorem shift_writes (p r : Byte) (c : Bool) : OtherFlagsKept p (setNZ (setC p c) r) [0, 1, 7] :=
  setNZ_otherFlagsKept (setBit_otherFlagsKept (.refl p _) 0 c (by decide) (by decide)) r (by decide) (by decide)

theorem adc_writes (a m p : Byte) : OtherFlagsKept p (adc a m p).p [0, 1, 6, 7] :=
  setNZ_otherFlagsKept (setBit_otherFlagsKept (setBit_otherFlagsKept (.refl p _) 0 _ (by decide) (by decide)) 6 _
    (by decide) (by decide)) _ (by decide) (by decide)

theorem sbc_writes (a m p : Byte) : OtherFlagsKept p (sbc a m p).p [0, 1, 6, 7] := adc_writes a (~~~m) p

theorem logic_writes :
    (∀ a m p, OtherFlagsKept p (andOp a m p).p [1, 7]) ∧ (∀ a m p, OtherFlagsKept p (oraOp a m p).p [1, 7]) ∧
      (∀ a m p, OtherFlagsKept p (eorOp a m p).p [1, 7]) :=
  ⟨fun _ _ p => setNZ_writes p _, fun _ _ p => setNZ_writes p _, fun _ _ p => setNZ_writes p _⟩

theorem modify_writes :
    (∀ m p, OtherFlagsKept p (incOp m p).p [1, 7]) ∧ (∀ m p, OtherFlagsKept p (decOp m p).p [1, 7]) ∧
      (∀ m p, OtherFlagsKept p (aslOp m p).p [0, 1, 7]) ∧ (∀ m p, OtherFlagsKept p (lsrOp m p).p [0, 1, 7]) ∧
      (∀ m p, OtherFlagsKept p (rolOp m p).p [0, 1, 7]) ∧ (∀ m p, OtherFlagsKept p (rorOp m p).p [0, 1, 7]) :=
  ⟨fun _ p => setNZ_writes p _, fun _ p => setNZ_writes p _, fun _ p => shift_writes p _ _,
    fun _ p => shift_writes p _ _, fun _ p => shift_writes p _ _, fun _ p => shift_writes p _ _⟩

theorem compareFlags_writes (r m p : Byte) : OtherFlagsKept p (compareFlags r m p) [0, 1, 7] :=
  setBit_otherFlagsKept (setBit_otherFlagsKept (setBit_otherFlagsKept (.refl p _) 0 _ (by decide) (by decide)) 1 _
    (by decide) (by decide)) 7 _ (by decide) (by decide)

theorem bitFlags_writes (a m p : Byte) : OtherFlagsKept p (bitFlags a m p) [1, 6, 7] :=
  setBit_otherFlagsKept (setBit_otherFlagsKept (setBit_otherFlagsKept (.refl p _) 1 _ (by decide) (by decide)) 7 _
    (by decide) (by decide)) 6 _ (by decide) (by decide)

/-! ### The shared meanings -/

/-- An outcome that, if the machine goes on, changes no bit of P but those listed. -/
def WritesFlags (p : Byte) (o : Out) (w : List Nat) : Prop := ∀ t, o = .next t → OtherFlagsKept p t.p w

theorem writesFlags_next {p : Byte} {t : State} {w : List Nat} (h : OtherFlagsKept p t.p w) : WritesFlags p (.next t) w := by
  rintro _ ⟨⟩
  exact h

/-- The end of an instruction after a state that has the P it began with. -/
theorem writesFlags_of_p_eq {s t : State} (h : t.p = s.p) (w : List Nat) : WritesFlags s.p (.next t) w :=
  writesFlags_next (h ▸ .refl _ w)

theorem loadReg_writesFlags (r : Reg) (opcode : Byte) (o : Source) (s : State) :
    WritesFlags s.p (loadReg r opcode o s) [1, 7] := by
  rw [← (load_onlyRead o s).p]
  exact writesFlags_next (setNZ_writes _ _)

theorem storeReg_writesFlags (r : Reg) (opcode : Byte) (m : MemOperand) (s : State) :
    WritesFlags s.p (storeReg r opcode m s) [] := by
  refine writesFlags_of_p_eq ?_ _
  exact (memWrite_onlyWritten _ _ _).p.trans (ea_onlyRead m s).p

theorem transfer_writesFlags (src dst : Reg) (opcode : Byte) (s : State) :
    WritesFlags s.p (transfer src dst opcode s) [1, 7] := writesFlags_next (setNZ_writes _ _)

theorem accumulate_writesFlags {f : Byte → Byte → Byte → AluOut} {w : List Nat}
    (hf : ∀ a m p, OtherFlagsKept p (f a m p).p w) (opcode : Byte) (o : Source) (s : State) :
    WritesFlags s.p (accumulate f opcode o s) w := by
  rw [← (load_onlyRead o s).p]
  exact writesFlags_next (hf _ _ _)

theorem testReg_writesFlags {f : Byte → Byte → Byte → Byte} {w : List Nat} (hf : ∀ a m p, OtherFlagsKept p (f a m p) w)
    (r : Reg) (opcode : Byte) (o : Source) (s : State) : WritesFlags s.p (testReg f r opcode o s) w := by
  rw [← (load_onlyRead o s).p]
  exact writesFlags_next (hf _ _ _)

theorem modifyMem_writesFlags {f : Byte → Byte → AluOut} {w : List Nat} (hf : ∀ m p, OtherFlagsKept p (f m p).p w)
    (opcode : Byte) (m : MemOperand) (s : State) : WritesFlags s.p (modifyMem f opcode m s) w := by
  rw [← (ea_onlyRead m s).p, ← (memRead_onlyRead (m.ea s).addr _).p]
  exact writesFlags_next (hf _ _)

theorem modifyReg_writesFlags {f : Byte → Byte → AluOut} {w : List Nat} (hf : ∀ m p, OtherFlagsKept p (f m p).p w)
    (r : Reg) (opcode : Byte) (s : State) : WritesFlags s.p (modifyReg f r opcode s) w := writesFlags_next (hf _ _)

/-- CLC, CLD, CLI, CLV, SEC, SED, SEI: one bit of P (42_control_flags_misc R514 to R520). -/
theorem changeP_writesFlags (i : Nat) (b : Bool) (hi : i < 8) (opcode : Byte) (s : State) :
    WritesFlags s.p (changeP (fun p => setBit p i b) opcode s) [i] := writesFlags_next (setBit_writes _ i b hi)

theorem branch_writesFlags (taken : Bool) (opcode op : Byte) (s : State) :
    WritesFlags s.p (branch taken opcode op s) [] := by
  cases taken <;> exact writesFlags_of_p_eq rfl _

/-- PLA sets Z and N from the byte it pulls (40_load_store_transfer R413). -/
theorem pla_writesFlags (s : State) : WritesFlags s.p (exec .pla s) [1, 7] := by
  have pulled : (pull s).state.p = s.p := by rw [pull_eq]; rfl
  rw [← pulled]
  exact writesFlags_next (setNZ_writes _ _)

/-- BRK sets I (42_control_flags_misc R513). -/
theorem brk_writesFlags (s : State) : WritesFlags s.p (exec .brk s) [2] := by
  refine writesFlags_next ?_
  rw [takeException_eq _ _ _ _ vectors_in_rom.2.1.1 vectors_in_rom.2.1.2]
  exact setBit_writes s.p 2 true (by decide)

/-! ### Every instruction -/

/-- An instruction writes the flags of its kind and no others (10_state R55). -/
theorem exec_writesFlags (i : Instr) (s : State) : WritesFlags s.p (exec i s) (flagsWritten i.kind) := by
  obtain ⟨hand, hora, heor⟩ := logic_writes
  obtain ⟨hinc, hdec, hasl, hlsr, hrol, hror⟩ := modify_writes
  cases i
  case plp | rti => exact writesFlags_next (otherFlagsKept_all _ _)
  case brk => exact brk_writesFlags s
  case pla => exact pla_writesFlags s
  case pha | php => exact writesFlags_of_p_eq (by rw [push_eq]; rfl) _
  case jsr => exact writesFlags_of_p_eq (by rw [pushWord_eq]; rfl) _
  case rts => exact writesFlags_of_p_eq (by rw [pullWord_eq]; rfl) _
  case jmpAbs | jmpInd => exact writesFlags_of_p_eq (by exact (ea_onlyRead _ s).p) _
  case txs | nop => exact writesFlags_of_p_eq rfl _
  case clc | sec | cld | sed | cli | sei | clv => exact changeP_writesFlags _ _ (by decide) _ s
  case ldaImm | ldaZp | ldaZpx | ldaAbs | ldaAbx | ldaAby | ldaIzx | ldaIzy | ldxImm | ldxZp | ldxZpy | ldxAbs |
      ldxAby | ldyImm | ldyZp | ldyZpx | ldyAbs | ldyAbx => exact loadReg_writesFlags _ _ _ s
  case staZp | staZpx | staAbs | staAbx | staAby | staIzx | staIzy | stxZp | stxZpy | stxAbs | styZp | styZpx |
      styAbs => exact storeReg_writesFlags _ _ _ s
  case tax | tay | txa | tya | tsx => exact transfer_writesFlags _ _ _ s
  case adcImm | adcZp | adcZpx | adcAbs | adcAbx | adcAby | adcIzx | adcIzy =>
    exact accumulate_writesFlags adc_writes _ _ s
  case sbcImm | sbcZp | sbcZpx | sbcAbs | sbcAbx | sbcAby | sbcIzx | sbcIzy =>
    exact accumulate_writesFlags sbc_writes _ _ s
  case andImm | andZp | andZpx | andAbs | andAbx | andAby | andIzx | andIzy => exact accumulate_writesFlags hand _ _ s
  case oraImm | oraZp | oraZpx | oraAbs | oraAbx | oraAby | oraIzx | oraIzy => exact accumulate_writesFlags hora _ _ s
  case eorImm | eorZp | eorZpx | eorAbs | eorAbx | eorAby | eorIzx | eorIzy => exact accumulate_writesFlags heor _ _ s
  case inx | iny => exact modifyReg_writesFlags hinc _ _ s
  case dex | dey => exact modifyReg_writesFlags hdec _ _ s
  case incZp | incZpx | incAbs | incAbx => exact modifyMem_writesFlags hinc _ _ s
  case decZp | decZpx | decAbs | decAbx => exact modifyMem_writesFlags hdec _ _ s
  case aslAcc => exact modifyReg_writesFlags hasl _ _ s
  case aslZp | aslZpx | aslAbs | aslAbx => exact modifyMem_writesFlags hasl _ _ s
  case lsrAcc => exact modifyReg_writesFlags hlsr _ _ s
  case lsrZp | lsrZpx | lsrAbs | lsrAbx => exact modifyMem_writesFlags hlsr _ _ s
  case rolAcc => exact modifyReg_writesFlags hrol _ _ s
  case rolZp | rolZpx | rolAbs | rolAbx => exact modifyMem_writesFlags hrol _ _ s
  case rorAcc => exact modifyReg_writesFlags hror _ _ s
  case rorZp | rorZpx | rorAbs | rorAbx => exact modifyMem_writesFlags hror _ _ s
  case cmpImm | cmpZp | cmpZpx | cmpAbs | cmpAbx | cmpAby | cmpIzx | cmpIzy | cpxImm | cpxZp | cpxAbs | cpyImm |
      cpyZp | cpyAbs => exact testReg_writesFlags compareFlags_writes _ _ _ s
  case bitZp | bitAbs => exact testReg_writesFlags bitFlags_writes _ _ _ s
  case bcc | bcs | beq | bmi | bne | bpl | bvc | bvs => exact branch_writesFlags _ _ _ s

theorem restore_cases {i : Instr} (h : i.kind ∈ [.plp, .rti]) : i = .plp ∨ i = .rti := by
  cases i <;> simp [Instr.kind] at h ⊢

/-- PLP and RTI force B = 0 and U = 1 (10_state R54). -/
theorem restore_fixes {i : Instr} {s t : State} (k : i.kind ∈ [.plp, .rti]) (h : exec i s = .next t) :
    flagB t.p = false ∧ flagU t.p = true := by
  obtain rfl | rfl := restore_cases k
  · cases h
    exact restoredP_fixed _
  · cases h
    rw [returnFromException_eq]
    exact restoredP_fixed _

/-- Settles O47: an instruction writes the bits of its kind's list, and the rows of R55 are those lists read by flag. -/
theorem onlyListedInstructionsChangeAFlag : Obligations.OnlyListedInstructionsChangeAFlag := by
  intro i s t h
  have kept := exec_writesFlags i s t h
  obtain ⟨carry, zeroNegative, overflow, interrupt, decimal, fixed⟩ := flagsWritten_rows i.kind
  exact ⟨fun n => kept 0 (by decide) (carry n),
    fun n => ⟨kept 1 (by decide) (zeroNegative n).1, kept 7 (by decide) (zeroNegative n).2⟩,
    fun n => kept 6 (by decide) (overflow n), fun n => kept 2 (by decide) (interrupt n),
    fun n => kept 3 (by decide) (decimal n),
    fun n => ⟨kept 4 (by decide) (fixed n).1, kept 5 (by decide) (fixed n).2⟩, fun k => restore_fixes k h⟩

/-! ## The reset state -/

/-- The cycle table has one entry for each opcode byte (30_encoding R276). -/
theorem cycleTable_length : defaultConfig.cycleTable.length = 256 := by
  have low : cycleTableLow.length = 128 := rfl
  have high : cycleTableHigh.length = 128 := rfl
  rw [defaultConfig, List.length_append, low, high]

theorem defaultConfig_wf : defaultConfig.wf = true := by
  rw [Config.wf, cycleTable_length]
  decide

/-- The mapper state of `State.reset` is what the mapper reset makes of the blank cartridge (51_cartridge_mapper R714). -/
theorem nromReset_eq : MapperState.nromReset = mapperReset .nrom CartInfo.blank := by decide

theorem reset_windowsFixed : State.reset.WindowsFixed := by
  have windows := mapperReset_windowsIn .nrom CartInfo.blank
  rw [← nromReset_eq] at windows
  exact (windowsFixed_iff _).mpr ⟨windows, nofun⟩

/-- Settles O56: every memory and the cache of the reset state are empty, and the other parts are fixed values. -/
theorem resetMeetsTheInvariant : Obligations.ResetMeetsTheInvariant where
  left :=
    { canonical := by constructor <;> rfl
      sized := by constructor <;> rfl
      narrow := ⟨nofun, nofun⟩
      status := ⟨by decide, by decide⟩
      raster := ⟨defaultConfig_wf, by decide, by decide⟩
      windows := reset_windowsFixed
      cache := ⟨trivial, nofun, nofun⟩ }
  right := nofun

end Sys2Proof.Machine

/-! # Proofs: memory (20_memory)

The bytes that the CPU sees are those of its places: `peek_eq_byteAt` says that a read gives the byte at the place of
its address, and `memWrite_cases` that a write below $8000 stores one there, or goes to a device and changes no such byte. -/

namespace Sys2Proof.Machine

/-! ## The rows of the CPU address map (20_memory R151) -/

section Rows
variable {a : Word}

theorem cpuRegion_ram (c : Config) (h : a.toNat < 0x2000) : cpuRegion c a = .ram := by
  rw [cpuRegion, if_pos h]

theorem cpuRegion_ppu {c : Config} (low : 0x2000 ≤ a.toNat) (window : a.toNat ≤ c.ppuRegWindowEnd.toNat)
    (high : a.toNat < 0x4000) : cpuRegion c a = .ppu := by
  rw [cpuRegion, if_neg (by omega), if_pos ⟨window, high⟩]

theorem cpuRegion_unmapped {c : Config} (low : 0x2000 ≤ a.toNat) (high : a.toNat < 0x6000)
    (window : c.ppuRegWindowEnd.toNat < a.toNat ∨ 0x4000 ≤ a.toNat) (dma : a.toNat ≠ 0x4014) (pad : a.toNat ≠ 0x4016)
    (pad2 : a.toNat ≠ 0x4017) : cpuRegion c a = .unmapped := by
  rw [cpuRegion, if_neg (by omega), if_neg (by omega)]
  split_ifs <;> rfl

theorem cpuRegion_oamDma (c : Config) (h : a.toNat = 0x4014) : cpuRegion c a = .oamDma := by
  rw [cpuRegion, if_neg (by omega), if_neg (by omega), if_neg (by omega), if_pos h]

theorem cpuRegion_pad (c : Config) (h : a.toNat = 0x4016) : cpuRegion c a = .pad := by
  rw [cpuRegion, if_neg (by omega), if_neg (by omega), if_neg (by omega), if_neg (by omega), if_pos h]

theorem cpuRegion_pad2 (c : Config) (h : a.toNat = 0x4017) : cpuRegion c a = .pad2 := by
  rw [cpuRegion, if_neg (by omega), if_neg (by omega), if_neg (by omega), if_neg (by omega), if_neg (by omega), if_pos h]

theorem cpuRegion_prgRam (c : Config) (low : 0x6000 ≤ a.toNat) (high : a.toNat < 0x8000) : cpuRegion c a = .prgRam := by
  rw [cpuRegion, if_neg (by omega), if_neg (by omega), if_neg (by omega), if_neg (by omega), if_neg (by omega),
    if_neg (by omega), if_neg (by omega), if_pos high]

theorem cpuRegion_prgRom (c : Config) (h : 0x8000 ≤ a.toNat) : cpuRegion c a = .prgRom := by
  rw [cpuRegion, if_neg (by omega), if_neg (by omega), if_neg (by omega), if_neg (by omega), if_neg (by omega),
    if_neg (by omega), if_neg (by omega), if_neg (by omega)]

end Rows

/-- The registers in the order of their index (50_ppu R600). -/
theorem registers_getElem : ∀ i : BitVec 3,
    [PpuReg.ctrl, .mask, .status, .oamAddr, .oamData, .scroll, .addr, .data][i.toNat]? = some (PpuReg.ofIndex i) := by
  decide

theorem registerIndex_toNat (a : Word) : (a.extractLsb' 0 3).toNat = a.toNat % 8 := by
  rw [BitVec.extractLsb'_toNat, Nat.shiftRight_zero]

/-- The register an address selects is the one at `a mod 8` of the list (50_ppu R600). -/
theorem ofIndex_of_mem {a : Word} {r : PpuReg}
    (h : r ∈ [PpuReg.ctrl, .mask, .status, .oamAddr, .oamData, .scroll, .addr, .data][a.toNat % 8]?) :
    PpuReg.ofIndex (a.extractLsb' 0 3) = r := by
  rw [← registerIndex_toNat, registers_getElem] at h
  exact Option.some.inj h

/-- The slot of an address in $8000-$FFFF (10_state R63). -/
theorem prgWindow_eq (m : MapperState) {a : Word} {k : Fin 4} (h : a.toNat / 0x2000 = 4 + k.val) :
    m.prgWindow a = m.prg.get k := by
  have slot : (a.extractLsb' 13 2).toFin = k := by
    apply Fin.ext
    show (a.extractLsb' 13 2).toNat = k.val
    rw [BitVec.extractLsb'_toNat, Nat.shiftRight_eq_div_pow]
    omega
  rw [MapperState.prgWindow, slot]

/-- The slot of a PPU address below $2000 (10_state R63). -/
theorem chrWindow_eq (m : MapperState) {a : VAddr} {k : Fin 8} (h : a.toNat / 0x400 = k.val) :
    m.chrWindow a = m.chr.get k := by
  have slot : (a.extractLsb' 10 3).toFin = k := by
    apply Fin.ext
    show (a.extractLsb' 10 3).toNat = k.val
    rw [BitVec.extractLsb'_toNat, Nat.shiftRight_eq_div_pow]
    omega
  rw [MapperState.chrWindow, slot]

/-- The read of $4017: bit 0 is 0, the others are a draw (20_memory R151). -/
theorem pad2Read_value_getLsbD (s : State) (i : Nat) (h : i < 8) :
    (pad2Read s).value.getLsbD i = if i = 0 then false else (Config.draw s.draws).getLsbD i := by
  change (s.drawn.extractLsb' 1 7 ++ (0 : BitVec 1)).getLsbD i = _
  rw [BitVec.getLsbD_append]
  by_cases zero : i = 0
  · simp [zero]
  · have high : 1 + (i - 1) = i := by omega
    have low : i - 1 < 7 := by omega
    simp [State.drawn, zero, high, low]

/-- The PPU register window ends inside $2000-$3FFF (20_memory R151). -/
theorem ppuRegWindowEnd_range {c : Config} (h : c.wf = true) :
    0x2000 ≤ c.ppuRegWindowEnd.toNat ∧ c.ppuRegWindowEnd.toNat < 0x4000 := by
  simp only [Config.wf, Bool.and_eq_true, decide_eq_true_eq] at h
  obtain ⟨⟨-, low⟩, high⟩ := h
  exact ⟨low, high⟩

/-- Settles O9: the region of each row, and the operation the router names for it. -/
theorem cpuAddressMap : Obligations.CpuAddressMap := by
  intro s a d wf
  obtain ⟨windowLow, windowHigh⟩ := ppuRegWindowEnd_range wf
  refine ⟨fun h => ?ram, fun low high r hr => ?ppu, fun h => ?unmapped, fun h => ?oamDma, fun h => ?pad, fun h => ?pad2,
    fun low high => ?prgRam, fun k h => ?prgRom⟩
  case ram => simp only [memRead, memWrite, cpuRegion_ram _ h, State.setRam, and_self]
  case ppu =>
    simp only [memRead, memWrite, cpuRegion_ppu low high (by omega), ofIndex_of_mem hr, and_self]
  case unmapped =>
    have region : cpuRegion s.config a = .unmapped := by
      obtain ⟨window, high⟩ | ⟨low, high, dma, pad, pad2⟩ := h
      · exact cpuRegion_unmapped (by omega) (by omega) (.inl window) (by omega) (by omega) (by omega)
      · exact cpuRegion_unmapped (by omega) (by omega) (.inr low) dma pad pad2
    simp only [memRead, memWrite, region, drawRead, State.drawn, State.afterDraw, State.setDraws, and_self]
  case oamDma =>
    simp only [memRead, memWrite, cpuRegion_oamDma _ h, drawRead, State.drawn, State.afterDraw, State.setDraws, and_self]
  case pad => simp only [memRead, memWrite, cpuRegion_pad _ h, State.setPad, and_self]
  case pad2 =>
    simp only [memRead, memWrite, cpuRegion_pad2 _ h]
    refine ⟨pad2Read_value_getLsbD s 0 (by decide), fun i low high => ?_, rfl, trivial⟩
    rw [pad2Read_value_getLsbD s i high, if_neg (by omega)]
  case prgRam => simp only [memRead, memWrite, cpuRegion_prgRam _ low (by omega : a.toNat < 0x8000), and_self]
  case prgRom =>
    simp only [memRead, memWrite, cpuRegion_prgRom _ (by omega : 0x8000 ≤ a.toNat), prgWindow_eq _ h, and_self]

/-! ## The PPU address map (20_memory R159 to R162) -/

/-- The row of the mirroring table for a layout: the page of each quadrant (20_memory R160). -/
def Mirroring.pages : Mirroring → List Nat
  | .singleLow => [0, 0, 0, 0]
  | .singleHigh => [1, 1, 1, 1]
  | .horizontal => [0, 0, 1, 1]
  | .vertical => [0, 1, 0, 1]

theorem Mirroring.page_eq (l : Mirroring) : ∀ q : BitVec 2, l.page q = l.pages.getD q.toNat 0 := by
  cases l <;> decide

theorem ciramAddr_eq (l : Mirroring) (a : VAddr) :
    ciramAddr l a = l.pages.getD (a.toNat / 0x400 % 4) 0 * 1024 + a.toNat % 0x400 := by
  rw [ciramAddr, Mirroring.page_eq, BitVec.extractLsb'_toNat, BitVec.extractLsb'_toNat, Nat.shiftRight_eq_div_pow,
    Nat.shiftRight_zero]

theorem palIndex_eq (a : VAddr) :
    palIndex a = if a.toNat % 32 ∈ [0x10, 0x14, 0x18, 0x1C] then a.toNat % 16 else a.toNat % 32 := by
  have index : (a.extractLsb' 0 5).toNat = a.toNat % 32 := by rw [BitVec.extractLsb'_toNat, Nat.shiftRight_zero]
  have cell : a.toNat % 32 % 16 = a.toNat % 16 := by omega
  simp only [palIndex, index, cell, List.mem_cons, List.not_mem_nil, or_false]

/-- Settles O13: the three ranges of the PPU bus, with the window, the page and the cell of an address. -/
theorem ppuAddressMap : Obligations.PpuAddressMap := by
  intro s a d
  refine ⟨fun k h => ?windows, fun low high => ?nametables, fun h => ?palette⟩
  case windows =>
    have low : a.toNat < 0x2000 := by omega
    rw [vRead, vWrite, if_pos low, if_pos low, chrWindow_eq _ h]
    exact ⟨rfl, rfl⟩
  case nametables =>
    have chr : ¬ a.toNat < 0x2000 := by omega
    rw [vRead, vWrite, if_neg chr, if_pos high, if_neg chr, if_pos high, ciramAddr_eq]
    exact ⟨rfl, rfl⟩
  case palette =>
    have chr : ¬ a.toNat < 0x2000 := by omega
    have nametable : ¬ a.toNat < 0x3F00 := by omega
    rw [vRead, vWrite, if_neg chr, if_neg nametable, if_neg chr, if_neg nametable, palIndex_eq]
    exact ⟨rfl, rfl⟩

/-! ## The bytes the CPU sees, by their places -/

/-- The byte at a place: in RAM or in a segment (20_memory R151, R152). -/
def State.byteAt (s : State) : Option Segment × Nat → Byte
  | (none, o) => s.ram.read o
  | (some g, o) => (s.segment g).read o

theorem placeOf_ram (s : State) {a : Word} (h : a.toNat < 0x2000) : placeOf s a = some (none, a.toNat % 2048) := by
  rw [placeOf, if_pos h]

theorem placeOf_device (s : State) {a : Word} (low : 0x2000 ≤ a.toNat) (high : a.toNat < 0x6000) : placeOf s a = none := by
  rw [placeOf, if_neg (by omega), if_pos high]

theorem placeOf_prgRam {s : State} (windows : s.WindowsFixed) {a : Word} (low : 0x6000 ≤ a.toNat)
    (high : a.toNat < 0x8000) : placeOf s a = some (some .prgRam, s.cart.windowOffset s.map.prg3 a.toNat) := by
  rw [placeOf, if_neg (by omega), if_neg (by omega), if_pos high, windows.prg3]

theorem placeOf_prgRom {s : State} (windows : s.WindowsFixed) {a : Word} (h : 0x8000 ≤ a.toNat) :
    placeOf s a = some (some .prgRom, s.cart.windowOffset (s.map.prgWindow a) a.toNat) := by
  have seg : (s.map.prgWindow a).seg = .prgRom := windows.prg _
  rw [placeOf, if_neg (by omega), if_neg (by omega), if_neg (by omega), seg]

/-- The CPU sees RAM, PRG-RAM and PRG-ROM, and no CHR segment (51_cartridge_mapper R712). -/
theorem placeOf_segment {s : State} (windows : s.WindowsFixed) {a : Word} {p : Option Segment × Nat}
    (h : placeOf s a = some p) : p.1 = none ∨ p.1 = some .prgRam ∨ p.1 = some .prgRom := by
  by_cases ram : a.toNat < 0x2000
  · cases (placeOf_ram s ram).symm.trans h
    exact .inl rfl
  by_cases device : a.toNat < 0x6000
  · cases (placeOf_device s (by omega) device).symm.trans h
  by_cases prgRam : a.toNat < 0x8000
  · cases (placeOf_prgRam windows (by omega) prgRam).symm.trans h
    exact .inr (.inl rfl)
  · cases (placeOf_prgRom windows (by omega)).symm.trans h
    exact .inr (.inr rfl)

/-- The windows and the header decide the place of an address. -/
theorem placeOf_congr {s t : State} (map : t.map = s.map) (cart : t.cart = s.cart) (a : Word) :
    placeOf t a = placeOf s a := by
  rw [placeOf, placeOf, map, cart]

theorem peek_eq_byteAt (s : State) (a : Word) : peek s a = (placeOf s a).map s.byteAt := by
  rw [peek, placeOf]
  split_ifs <;> rfl

/-- With the same windows, an address reads the same if its place holds the same byte. -/
theorem peek_congr {s t : State} (map : t.map = s.map) (cart : t.cart = s.cart) {a : Word}
    (same : ∀ p, placeOf s a = some p → t.byteAt p = s.byteAt p) : peek t a = peek s a := by
  rw [peek_eq_byteAt, peek_eq_byteAt, placeOf_congr map cart]
  exact Option.map_congr same

/-! ## Reads (20_memory R158) -/

/-- The rows of $2000-$5FFF (20_memory R151). -/
theorem cpuRegion_device (c : Config) {a : Word} (low : 0x2000 ≤ a.toNat) (high : a.toNat < 0x6000) :
    (cpuRegion c a = .ppu ∧ a.toNat < 0x4000) ∨ cpuRegion c a = .oamDma ∨ (cpuRegion c a = .pad ∧ a.toNat = 0x4016) ∨
      cpuRegion c a = .pad2 ∨ cpuRegion c a = .unmapped := by
  by_cases ppu : a.toNat ≤ c.ppuRegWindowEnd.toNat ∧ a.toNat < 0x4000
  · exact .inl ⟨cpuRegion_ppu low ppu.1 ppu.2, ppu.2⟩
  by_cases dma : a.toNat = 0x4014
  · exact .inr (.inl (cpuRegion_oamDma c dma))
  by_cases pad : a.toNat = 0x4016
  · exact .inr (.inr (.inl ⟨cpuRegion_pad c pad, pad⟩))
  by_cases pad2 : a.toNat = 0x4017
  · exact .inr (.inr (.inr (.inl (cpuRegion_pad2 c pad2))))
  · exact .inr (.inr (.inr (.inr (cpuRegion_unmapped low high (by omega) dma pad pad2))))

theorem OnlyRead.byteAt {s t : State} (h : OnlyRead s t) (p : Option Segment × Nat) : t.byteAt p = s.byteAt p := by
  obtain ⟨_ | g, o⟩ := p
  · rw [State.byteAt, State.byteAt, h.ram]
  · cases g
    · exact congrArg (·.read o) h.prgRom
    · exact congrArg (·.read o) h.prgRam
    · exact congrArg (·.read o) h.chrRom
    · exact congrArg (·.read o) h.chrRam

theorem OnlyRead.peek {s t : State} (h : OnlyRead s t) (a : Word) : peek t a = peek s a :=
  peek_congr h.map h.cart fun p _ => h.byteAt p

/-- A read of a PPU register other than PPUSTATUS and PPUDATA changes at most the count of draws (50_ppu R605, R610). -/
theorem ppuRegRead_state (r : PpuReg) (s : State) :
    r = .status ∨ r = .data ∨ (ppuRegRead r s).state = s ∨ (ppuRegRead r s).state = s.afterDraw := by
  cases r
  case status => exact .inl rfl
  case data => exact .inr (.inl rfl)
  case oamData => exact .inr (.inr (.inl rfl))
  all_goals exact .inr (.inr (.inr rfl))

theorem ofIndex_eq_status_or_data :
    ∀ i : BitVec 3, (PpuReg.ofIndex i = .status → i.toNat = 2) ∧ (PpuReg.ofIndex i = .data → i.toNat = 7) := by decide

theorem memRead_state_of_executable {a : Word} {s : State} (h : executable a = true) : (memRead a s).state = s := by
  rw [← peek_isSome s, Option.isSome_iff_exists] at h
  obtain ⟨b, hb⟩ := h
  rw [memRead_of_peek hb]

/-- Where a CPU read changes more than the count of draws (20_memory R158). -/
theorem memRead_state (a : Word) (s : State) :
    (0x2000 ≤ a.toNat ∧ a.toNat < 0x4000 ∧ (a.toNat % 8 = 2 ∨ a.toNat % 8 = 7)) ∨ a.toNat = 0x4016 ∨
      (memRead a s).state = s ∨ (memRead a s).state = s.afterDraw := by
  by_cases device : 0x2000 ≤ a.toNat ∧ a.toNat < 0x6000
  · obtain ⟨low, high⟩ := device
    obtain ⟨ppu, h⟩ | dma | ⟨-, h⟩ | pad2 | unmapped := cpuRegion_device s.config low high
    · simp only [memRead, ppu]
      have index := ofIndex_eq_status_or_data (a.extractLsb' 0 3)
      rw [registerIndex_toNat] at index
      obtain status | data | same := ppuRegRead_state (PpuReg.ofIndex (a.extractLsb' 0 3)) s
      · exact .inl ⟨low, h, .inl (index.1 status)⟩
      · exact .inl ⟨low, h, .inr (index.2 data)⟩
      · exact .inr (.inr same)
    · simp only [memRead, dma]
      exact .inr (.inr (.inr rfl))
    · exact .inr (.inl h)
    · simp only [memRead, pad2]
      exact .inr (.inr (.inr rfl))
    · simp only [memRead, unmapped]
      exact .inr (.inr (.inr rfl))
  · have memory : executable a = true := by
      simp only [executable, Bool.or_eq_true, decide_eq_true_eq]
      omega
    exact .inr (.inr (.inl (memRead_state_of_executable memory)))

/-- Settles O10: a read stays within `OnlyRead`, and by row it changes a device, the count of draws or nothing. -/
theorem cpuReadsChangeOnlyDeviceState : Obligations.CpuReadsChangeOnlyDeviceState := fun a s =>
  ⟨memRead_onlyRead a s, (memRead_onlyRead a s).peek, memRead_state a s, fun _ => memRead_of_peek⟩

/-! ## Writes (20_memory R151 to R153) -/

/-- No byte that the CPU can see differs, nor the windows it is seen through. -/
structure SameCpuBytes (s t : State) : Prop where
  ram : t.ram = s.ram
  prgRom : t.prgRom = s.prgRom
  prgRam : t.prgRam = s.prgRam
  cart : t.cart = s.cart
  map : t.map = s.map

theorem SameCpuBytes.refl (s : State) : SameCpuBytes s s := by constructor <;> rfl

theorem SameCpuBytes.trans {s t u : State} (h : SameCpuBytes s t) (k : SameCpuBytes t u) : SameCpuBytes s u :=
  ⟨k.ram.trans h.ram, k.prgRom.trans h.prgRom, k.prgRam.trans h.prgRam, k.cart.trans h.cart, k.map.trans h.map⟩

theorem OnlyRead.sameCpuBytes {s t : State} (h : OnlyRead s t) : SameCpuBytes s t :=
  ⟨h.ram, h.prgRom, h.prgRam, h.cart, h.map⟩

theorem SameCpuBytes.peek {s t : State} (h : SameCpuBytes s t) (windows : s.WindowsFixed) (a : Word) :
    peek t a = peek s a := by
  refine peek_congr h.map h.cart fun p place => ?_
  obtain ⟨g, o⟩ := p
  obtain rfl | rfl | rfl := placeOf_segment windows place
  · exact congrArg (·.read o) h.ram
  · exact congrArg (·.read o) h.prgRam
  · exact congrArg (·.read o) h.prgRom

/-- The PPU bus reaches CHR, nametables and palette, none of which the CPU sees (20_memory R159). -/
theorem vWrite_sameCpuBytes {s : State} (windows : s.WindowsFixed) (a : VAddr) (d : Byte) :
    SameCpuBytes s (vWrite a d s) := by
  have chr : (s.map.chrWindow a).seg = s.cart.chrSegment := windows.chr _
  rw [vWrite]
  split_ifs
  · rw [windowWrite, chr, CartInfo.chrSegment]
    split_ifs <;> constructor <;> rfl
  · constructor <;> rfl
  · constructor <;> rfl

theorem ppuRegWrite_sameCpuBytes {s : State} (windows : s.WindowsFixed) (r : PpuReg) (d : Byte) :
    SameCpuBytes s (ppuRegWrite r d s) := by
  cases r
  case data => exact (vWrite_sameCpuBytes windows _ d).trans (by constructor <;> rfl)
  case scroll => rw [ppuRegWrite, scrollWrite]; split <;> constructor <;> rfl
  case addr => rw [ppuRegWrite, addrWrite]; split <;> constructor <;> rfl
  all_goals constructor <;> rfl

theorem dmaFrom_sameCpuBytes (page : Byte) (n : Nat) (s : State) : SameCpuBytes s (dmaFrom page n s) := by
  induction n generalizing s with
  | zero => exact .refl s
  | succ n ih =>
    have byte : SameCpuBytes s (dmaByte page (256 - (n + 1)) s) :=
      (memRead_onlyRead _ s).sameCpuBytes.trans (by constructor <;> rfl)
    exact byte.trans (ih _)

/-- A write to $2000-$5FFF changes no byte of memory that the CPU sees (20_memory R151). -/
theorem memWrite_device_sameCpuBytes {s : State} (windows : s.WindowsFixed) {a : Word} (d : Byte) (low : 0x2000 ≤ a.toNat)
    (high : a.toNat < 0x6000) : SameCpuBytes s (memWrite a d s) := by
  obtain ⟨ppu, -⟩ | dma | ⟨pad, -⟩ | pad2 | unmapped := cpuRegion_device s.config low high
  · simp only [memWrite, ppu]
    exact ppuRegWrite_sameCpuBytes windows _ d
  · simp only [memWrite, dma]
    exact (dmaFrom_sameCpuBytes d 256 s).trans (by constructor <;> rfl)
  · simp only [memWrite, pad]
    constructor <;> rfl
  · simp only [memWrite, pad2]
    exact .refl s
  · simp only [memWrite, unmapped]
    exact .refl s

theorem memWrite_ram (s : State) {a : Word} (d : Byte) (h : a.toNat < 0x2000) :
    memWrite a d s = s.setRam (s.ram.write (a.toNat % 2048) d) := by
  simp only [memWrite, cpuRegion_ram _ h]

theorem memWrite_prgRam {s : State} (windows : s.WindowsFixed) {a : Word} (d : Byte) (low : 0x6000 ≤ a.toNat)
    (high : a.toNat < 0x8000) :
    memWrite a d s = s.setPrgRam (s.prgRam.write (s.cart.windowOffset s.map.prg3 a.toNat) d) := by
  simp only [memWrite, cpuRegion_prgRam _ low high, windowWrite, windows.prg3]

theorem memWrite_prgRom (s : State) {a : Word} (d : Byte) (h : 0x8000 ≤ a.toNat) :
    memWrite a d s = mapperWrite a d s := by
  simp only [memWrite, cpuRegion_prgRom _ h]

/-- The state with a byte stored at a place of RAM or PRG-RAM, the two memories that a CPU write can store to. -/
def State.storeAt (s : State) (d : Byte) : Option Segment × Nat → State
  | (none, o) => s.setRam (s.ram.write o d)
  | (some .prgRam, o) => s.setPrgRam (s.prgRam.write o d)
  | _ => s

theorem storeAt_windows (s : State) (d : Byte) (p : Option Segment × Nat) :
    (s.storeAt d p).map = s.map ∧ (s.storeAt d p).cart = s.cart := by
  unfold State.storeAt
  split <;> exact ⟨rfl, rfl⟩

theorem byteAt_storeAt_other (s : State) (d : Byte) {p q : Option Segment × Nat} (ne : q ≠ p) :
    (s.storeAt d p).byteAt q = s.byteAt q := by
  obtain ⟨_ | g, o⟩ := p <;> obtain ⟨_ | g', o'⟩ := q
  · exact Memory.read_write_other _ _ _ _ fun e => ne (by rw [e])
  · cases g' <;> rfl
  · cases g <;> rfl
  · cases g
    case prgRam =>
      cases g'
      case prgRam => exact Memory.read_write_other _ _ _ _ fun e => ne (by rw [e])
      all_goals rfl
    all_goals rfl

theorem byteAt_storeAt_same {s : State} (canonical : s.MemoriesCanonical) (d : Byte) {p : Option Segment × Nat}
    (writable : p.1 = none ∨ p.1 = some .prgRam) : (s.storeAt d p).byteAt p = d := by
  obtain ⟨g, o⟩ := p
  obtain rfl | rfl := writable
  · exact (Memory.read_write canonical.ram o d o).trans (if_pos rfl)
  · exact (Memory.read_write canonical.prgRam o d o).trans (if_pos rfl)

/-- What a CPU write below $8000 can do to the bytes the CPU sees: it stores one at the place of its address, or it is a
device's (20_memory R151, R153). -/
theorem memWrite_cases {s : State} (windows : s.WindowsFixed) {a : Word} (d : Byte) (h : a.toNat < 0x8000) :
    (∃ p, placeOf s a = some p ∧ (p.1 = none ∨ p.1 = some .prgRam) ∧ memWrite a d s = s.storeAt d p) ∨
      (placeOf s a = none ∧ SameCpuBytes s (memWrite a d s)) := by
  by_cases ram : a.toNat < 0x2000
  · exact .inl ⟨_, placeOf_ram s ram, .inl rfl, memWrite_ram s d ram⟩
  by_cases device : a.toNat < 0x6000
  · exact .inr ⟨placeOf_device s (by omega) device, memWrite_device_sameCpuBytes windows d (by omega) device⟩
  · exact .inl ⟨_, placeOf_prgRam windows (by omega) h, .inr rfl, memWrite_prgRam windows d (by omega) h⟩

/-- A CPU write below $8000 changes no byte but those of the place of its address (20_memory R151 to R153). -/
theorem peek_memWrite_other {s : State} (windows : s.WindowsFixed) {a c : Word} (d : Byte) (h : a.toNat < 0x8000)
    (other : peek s c = none ∨ placeOf s c ≠ placeOf s a) : peek (memWrite a d s) c = peek s c := by
  obtain ⟨p, place, -, stored⟩ | ⟨-, same⟩ := memWrite_cases windows d h
  · rw [stored]
    refine peek_congr (storeAt_windows s d p).1 (storeAt_windows s d p).2 fun q placeC => byteAt_storeAt_other s d ?_
    rintro rfl
    obtain nothing | ne := other
    · rw [peek_eq_byteAt, placeC] at nothing
      cases nothing
    · exact ne (placeC.trans place.symm)
  · exact same.peek windows c

/-- Settles O11: the write stores at the place of its address, and every address reads the byte at its place. -/
theorem storedByteReadsBack : Obligations.StoredByteReadsBack := by
  intro s a b d canonical windows h memory
  split_ifs with eq
  · obtain ⟨p, place, writable, stored⟩ | ⟨nowhere, -⟩ := memWrite_cases windows d h
    · have unmoved := storeAt_windows s d p
      rw [stored, peek_eq_byteAt, placeOf_congr unmoved.1 unmoved.2, eq, place, Option.map_some,
        byteAt_storeAt_same canonical d writable]
    · rw [peek_eq_byteAt, nowhere] at memory
      cases memory
  · exact peek_memWrite_other windows d h (.inr eq)

/-! ## The forms that store to their operand (30_encoding R254) -/

/-- The meanings of the stores (40_load_store_transfer R403 to R405). -/
theorem storeForms_exec (b : Byte) (w : Word) :
    (∀ f ∈ staForms b w, exec f.instr = storeReg .a f.opcode f.operand) ∧
    (∀ f ∈ stxForms b w, exec f.instr = storeReg .x f.opcode f.operand) ∧
    (∀ f ∈ styForms b w, exec f.instr = storeReg .y f.opcode f.operand) := by
  refine ⟨fun f hf => ?_, fun f hf => ?_, fun f hf => ?_⟩ <;> fin_cases hf <;> rfl

/-- The meanings of the read-modify-writes of memory (41_arith_logic_shift R459, R460, R465 to R468). -/
theorem modifyForms_exec (b : Byte) (w : Word) :
    (∀ f ∈ incForms b w, exec f.instr = modifyMem incOp f.opcode f.operand) ∧
    (∀ f ∈ decForms b w, exec f.instr = modifyMem decOp f.opcode f.operand) ∧
    (∀ f ∈ aslForms b w, exec f.instr = modifyMem aslOp f.opcode f.operand) ∧
    (∀ f ∈ lsrForms b w, exec f.instr = modifyMem lsrOp f.opcode f.operand) ∧
    (∀ f ∈ rolForms b w, exec f.instr = modifyMem rolOp f.opcode f.operand) ∧
    (∀ f ∈ rorForms b w, exec f.instr = modifyMem rorOp f.opcode f.operand) := by
  refine ⟨fun f hf => ?_, fun f hf => ?_, fun f hf => ?_, fun f hf => ?_, fun f hf => ?_, fun f hf => ?_⟩ <;>
    fin_cases hf <;> rfl

/-- A storing form is a store or a read-modify-write. -/
theorem storingForms_exec {b : Byte} {w : Word} {f : Form MemOperand} (h : f ∈ storingForms b w) :
    (∃ r, exec f.instr = storeReg r f.opcode f.operand) ∨ ∃ g, exec f.instr = modifyMem g f.opcode f.operand := by
  obtain ⟨sta, stx, sty⟩ := storeForms_exec b w
  obtain ⟨inc, dec, asl, lsr, rol, ror⟩ := modifyForms_exec b w
  simp only [storingForms, List.mem_append] at h
  obtain (((((((h | h) | h) | h) | h) | h) | h) | h) | h := h
  · exact .inl ⟨_, sta f h⟩
  · exact .inl ⟨_, stx f h⟩
  · exact .inl ⟨_, sty f h⟩
  · exact .inr ⟨_, inc f h⟩
  · exact .inr ⟨_, dec f h⟩
  · exact .inr ⟨_, asl f h⟩
  · exact .inr ⟨_, lsr f h⟩
  · exact .inr ⟨_, rol f h⟩
  · exact .inr ⟨_, ror f h⟩

/-- Whether an operand has any mode but JMP's indirect one (30_encoding R266). -/
def MemOperand.direct : MemOperand → Bool
  | .ind _ => false
  | _ => true

/-- Only the pointer of the indirect mode may lie outside zero page, so no other address is formed with a side effect
(30_encoding R258 to R265). -/
theorem ea_state {m : MemOperand} (direct : m.direct = true) (s : State) : (m.ea s).state = s := by
  cases m
  case ind => cases direct
  case izx op => exact congrArg WordOut.state (zeroPagePointer_eq (op + s.x) s)
  case izy op => exact congrArg WordOut.state (zeroPagePointer_eq op s)
  all_goals rfl

theorem storingForms_direct {b : Byte} {w : Word} {f : Form MemOperand} (h : f ∈ storingForms b w) :
    f.operand.direct = true := by
  have all : (storingForms b w).all (·.operand.direct) = true := rfl
  exact List.all_eq_true.mp all f h

theorem MemOperand.length_eq (m : MemOperand) : m.length = 1 + m.bytes.length := by cases m <;> rfl

/-- A storing form writes one byte to its address, in a state that a read of the address may have left; where that is
memory, the read has changed nothing. -/
theorem storingForms_next {b : Byte} {w : Word} {f : Form MemOperand} (h : f ∈ storingForms b w) (s : State) :
    ∃ u v p, OnlyRead s u ∧ (executable (f.operand.ea s).addr = true → u = s) ∧
      exec f.instr s = .next (retire f.opcode f.operand.length false ((memWrite (f.operand.ea s).addr v u).setP p)) := by
  have ea := ea_state (storingForms_direct h) s
  obtain ⟨r, hr⟩ | ⟨g, hg⟩ := storingForms_exec h
  · refine ⟨s, s.reg r, (memWrite (f.operand.ea s).addr (s.reg r) s).p, .refl s, fun _ => rfl, ?_⟩
    rw [hr, storeReg, ea]
    rfl
  · let m := memRead (f.operand.ea s).addr s
    let out := g m.value m.state.p
    refine ⟨m.state, out.result, out.p, memRead_onlyRead _ s, memRead_state_of_executable, ?_⟩
    rw [hg, modifyMem, ea]

/-- Settles O34: `storingForms_next` gives the one write, and `memWrite_onlyWritten` and `peek_memWrite_other` its frame. -/
theorem storingFormsFrame : Obligations.StoringFormsFrame := by
  intro b w s windows f hf
  obtain ⟨u, v, p, read, memory, next⟩ := storingForms_next hf s
  refine ⟨_, next, ?_⟩
  generalize (f.operand.ea s).addr = a at memory
  have kept := read.onlyWritten.trans (memWrite_onlyWritten a v u)
  have unmoved (c : Word) : placeOf u c = placeOf s c := placeOf_congr read.map read.cart c
  have inMemory (h : a.toNat < 0x2000 ∨ 0x6000 ≤ a.toNat) : u = s :=
    memory (by simpa only [executable, Bool.or_eq_true, decide_eq_true_eq] using h)
  generalize written : memWrite a v u = m at kept
  refine ⟨kept.a, kept.x, kept.y, kept.sp, ?pc, kept.config, kept.cache, kept.cur, kept.prgRom, kept.chrRom, kept.frame,
    kept.cart, kept.host, fun h c other => ?bytes, fun h => ?ram, fun low high => ?prgRam, fun h => ?prgRom⟩
  case pc => exact congrArg₂ (fun pc n => pc + BitVec.ofNat 16 n) kept.pc f.operand.length_eq
  case bytes =>
    rw [← read.peek c, ← unmoved c, ← unmoved a] at other
    have bytes := peek_memWrite_other (read.keepsRegInv.windows windows) v h other
    rw [written] at bytes
    exact bytes.trans (read.peek c)
  case ram =>
    obtain rfl := inMemory (.inl h)
    rw [memWrite_ram u v h] at written
    subst written
    rfl
  case prgRam =>
    obtain rfl := inMemory (.inr low)
    rw [memWrite_prgRam windows v low high] at written
    subst written
    rfl
  case prgRom =>
    obtain rfl := inMemory (.inr (by omega))
    obtain ⟨line, map, mapper⟩ : ∃ line map, memWrite a v u = (u.setIrqLine line).setMap map :=
      ⟨_, _, memWrite_prgRom u v h⟩
    rw [mapper] at written
    subst written
    rfl

end Sys2Proof.Machine

/-! # Proofs: encoding (30_encoding)

`decode_eq_ok_iff` says once what the decoder reads, and both round trips are its two directions. Behind it stands
`microOpOf_instr_iff`: a micro-op dispatches to an instruction exactly when it is the instruction's own micro-op. -/

namespace Sys2Proof

open Sys2Proof.Machine

/-! ## Operand bytes and the operand word (30_encoding R250, R251, R253) -/

theorem lo_mkWord (h l : Byte) : lo (mkWord h l) = l := BitVec.extractLsb'_append_eq_right

theorem hi_mkWord (h l : Byte) : hi (mkWord h l) = h := BitVec.extractLsb'_append_eq_left

theorem lo_toNat (w : Word) : (lo w).toNat = w.toNat % 256 := by
  rw [lo, BitVec.extractLsb'_toNat, Nat.shiftRight_zero]

theorem hi_toNat (w : Word) : (hi w).toNat = w.toNat / 256 := by
  rw [hi, BitVec.extractLsb'_toNat, Nat.shiftRight_eq_div_pow]
  omega

theorem mkWord_hi_lo (w : Word) : mkWord (hi w) (lo w) = w := by
  apply BitVec.eq_of_toNat_eq
  rw [mkWord_toNat, hi_toNat, lo_toNat]
  omega

theorem zext16_toNat (b : Byte) : (zext16 b).toNat = b.toNat := by
  rw [zext16, BitVec.toNat_setWidth]
  omega

theorem mkWord_eq_iff {h l : Byte} {w : Word} : mkWord h l = w ↔ l = lo w ∧ h = hi w := by
  constructor
  · rintro rfl
    rw [lo_mkWord, hi_mkWord]
    exact ⟨rfl, rfl⟩
  · rintro ⟨rfl, rfl⟩
    exact mkWord_hi_lo w

theorem zext16_eq_iff {b : Byte} {w : Word} (narrow : zext16 (lo w) = w) : zext16 b = w ↔ b = lo w := by
  constructor
  · rintro rfl
    exact (Laws.Encoding.lo_zext16 b).symm
  · rintro rfl
    exact narrow

theorem Mode.length_cases (m : Mode) : m.length = 1 ∨ m.length = 2 ∨ m.length = 3 := by
  cases m <;> decide

/-- The part of an operand word that an instruction of a length has bytes for. -/
def operandPart (len : Nat) (w : Word) : Word := if len = 3 then w else if len = 2 then zext16 (lo w) else 0

theorem operandPart_assembleOperand (len : Nat) (b1 b2 : Byte) :
    operandPart len (assembleOperand len b1 b2) = assembleOperand len b1 b2 := by
  unfold operandPart assembleOperand
  split_ifs
  · rfl
  · rw [Laws.Encoding.lo_zext16]
  · rfl

/-! ## The opcode map and the rows of the instruction set (30_encoding R269, R273) -/

section
open Laws.Encoding

/-- The family `Encoding` of the laws holds of every instruction. -/
theorem instr_encoding : ∀ i : Instr, Statement i
  | .adcIzx op => adcIzx op | .adcZp op => adcZp op | .adcImm op => adcImm op | .adcAbs op => adcAbs op
  | .adcIzy op => adcIzy op | .adcZpx op => adcZpx op | .adcAby op => adcAby op | .adcAbx op => adcAbx op
  | .andIzx op => andIzx op | .andZp op => andZp op | .andImm op => andImm op | .andAbs op => andAbs op
  | .andIzy op => andIzy op | .andZpx op => andZpx op | .andAby op => andAby op | .andAbx op => andAbx op
  | .aslZp op => aslZp op | .aslAcc => aslAcc | .aslAbs op => aslAbs op | .aslZpx op => aslZpx op
  | .aslAbx op => aslAbx op | .bcc op => bcc op | .bcs op => bcs op | .beq op => beq op | .bitZp op => bitZp op
  | .bitAbs op => bitAbs op | .bmi op => bmi op | .bne op => bne op | .bpl op => bpl op | .brk => brk
  | .bvc op => bvc op | .bvs op => bvs op | .clc => clc | .cld => cld | .cli => cli | .clv => clv
  | .cmpIzx op => cmpIzx op | .cmpZp op => cmpZp op | .cmpImm op => cmpImm op | .cmpAbs op => cmpAbs op
  | .cmpIzy op => cmpIzy op | .cmpZpx op => cmpZpx op | .cmpAby op => cmpAby op | .cmpAbx op => cmpAbx op
  | .cpxImm op => cpxImm op | .cpxZp op => cpxZp op | .cpxAbs op => cpxAbs op | .cpyImm op => cpyImm op
  | .cpyZp op => cpyZp op | .cpyAbs op => cpyAbs op | .decZp op => decZp op | .decAbs op => decAbs op
  | .decZpx op => decZpx op | .decAbx op => decAbx op | .dex => dex | .dey => dey | .eorIzx op => eorIzx op
  | .eorZp op => eorZp op | .eorImm op => eorImm op | .eorAbs op => eorAbs op | .eorIzy op => eorIzy op
  | .eorZpx op => eorZpx op | .eorAby op => eorAby op | .eorAbx op => eorAbx op | .incZp op => incZp op
  | .incAbs op => incAbs op | .incZpx op => incZpx op | .incAbx op => incAbx op | .inx => inx | .iny => iny
  | .jmpAbs op => jmpAbs op | .jmpInd op => jmpInd op | .jsr op => jsr op | .ldaIzx op => ldaIzx op
  | .ldaZp op => ldaZp op | .ldaImm op => ldaImm op | .ldaAbs op => ldaAbs op | .ldaIzy op => ldaIzy op
  | .ldaZpx op => ldaZpx op | .ldaAby op => ldaAby op | .ldaAbx op => ldaAbx op | .ldxImm op => ldxImm op
  | .ldxZp op => ldxZp op | .ldxAbs op => ldxAbs op | .ldxZpy op => ldxZpy op | .ldxAby op => ldxAby op
  | .ldyImm op => ldyImm op | .ldyZp op => ldyZp op | .ldyAbs op => ldyAbs op | .ldyZpx op => ldyZpx op
  | .ldyAbx op => ldyAbx op | .lsrZp op => lsrZp op | .lsrAcc => lsrAcc | .lsrAbs op => lsrAbs op
  | .lsrZpx op => lsrZpx op | .lsrAbx op => lsrAbx op | .nop => nop | .oraIzx op => oraIzx op | .oraZp op => oraZp op
  | .oraImm op => oraImm op | .oraAbs op => oraAbs op | .oraIzy op => oraIzy op | .oraZpx op => oraZpx op
  | .oraAby op => oraAby op | .oraAbx op => oraAbx op | .pha => pha | .php => php | .pla => pla | .plp => plp
  | .rolZp op => rolZp op | .rolAcc => rolAcc | .rolAbs op => rolAbs op | .rolZpx op => rolZpx op
  | .rolAbx op => rolAbx op | .rorZp op => rorZp op | .rorAcc => rorAcc | .rorAbs op => rorAbs op
  | .rorZpx op => rorZpx op | .rorAbx op => rorAbx op | .rti => rti | .rts => rts | .sbcIzx op => sbcIzx op
  | .sbcZp op => sbcZp op | .sbcImm op => sbcImm op | .sbcAbs op => sbcAbs op | .sbcIzy op => sbcIzy op
  | .sbcZpx op => sbcZpx op | .sbcAby op => sbcAby op | .sbcAbx op => sbcAbx op | .sec => sec | .sed => sed
  | .sei => sei | .staIzx op => staIzx op | .staZp op => staZp op | .staAbs op => staAbs op | .staIzy op => staIzy op
  | .staZpx op => staZpx op | .staAby op => staAby op | .staAbx op => staAbx op | .stxZp op => stxZp op
  | .stxAbs op => stxAbs op | .stxZpy op => stxZpy op | .styZp op => styZp op | .styAbs op => styAbs op
  | .styZpx op => styZpx op | .tax => tax | .tay => tay | .tsx => tsx | .txa => txa | .txs => txs | .tya => tya

end

theorem opcodeEntry_opcode (i : Instr) : opcodeEntry i.opcode = (i.kind, i.mode) := (instr_encoding i).1

theorem assemble_operand (i : Instr) : Instr.assemble i.kind i.mode i.operand = some i := (instr_encoding i).2

/-- A pair (kind, mode) gives an instruction of that kind and mode, whose operand is as much of the word as the mode has
bytes for. The table has no arm but its rows, and each row has these fields by definition. -/
theorem assemble_fields {k : Kind} {m : Mode} {w : Word} {i : Instr} (h : Instr.assemble k m w = some i) :
    i.kind = k ∧ i.mode = m ∧ i.operand = operandPart m.length w := by
  cases k <;> cases m <;> cases h <;> exact ⟨rfl, rfl, rfl⟩

/-- Which row a pair (kind, mode) is in does not depend on the operand. -/
theorem assemble_opcode_congr (k : Kind) (m : Mode) (w v : Word) :
    (Instr.assemble k m w).map Instr.opcode = (Instr.assemble k m v).map Instr.opcode := by
  cases k <;> cases m <;> rfl

/-- Each cell of the map that is not marked `-` is the row of its own opcode byte. -/
theorem assemble_opcodeEntry : ∀ b : Byte, (opcodeEntry b).1 ≠ .undefined →
    (Instr.assemble (opcodeEntry b).1 (opcodeEntry b).2 0).map Instr.opcode = some b := by
  decide

/-- The listed bytes are those the map marks `-`, in order (30_encoding R271). -/
theorem undefinedOpcodes_eq :
    undefinedOpcodes = ((List.range 256).map (BitVec.ofNat 8)).filter fun b => (opcodeEntry b).1 = .undefined := by
  decide

theorem opcodeEntry_undefined_iff (b : Byte) : (opcodeEntry b).1 = .undefined ↔ b ∈ undefinedOpcodes := by
  have byte : b ∈ (List.range 256).map (BitVec.ofNat 8) :=
    List.mem_map.mpr ⟨b.toNat, List.mem_range.mpr b.isLt, BitVec.eq_of_toNat_eq (Nat.mod_eq_of_lt b.isLt)⟩
  rw [undefinedOpcodes_eq, List.mem_filter, decide_eq_true_iff, and_iff_right byte]

theorem opcodeEntry_of_undefined : ∀ b : Byte, (opcodeEntry b).1 = .undefined → opcodeEntry b = noOpcode := by
  decide

/-! ## Micro-ops (30_encoding R270, R273) -/

theorem instr_microOp (i : Instr) (a : Word) : (i.microOp a).instr = some i := assemble_operand i

theorem microOpOf_instr_opcode {a : Word} {b0 b1 b2 : Byte} (h : (microOpOf a b0 b1 b2).kind ≠ .undefined) :
    (microOpOf a b0 b1 b2).instr.map Instr.opcode = some b0 :=
  (assemble_opcode_congr _ _ _ 0).trans (assemble_opcodeEntry b0 h)

theorem instr_kind_ne_undefined {m : MicroOp} {i : Instr} (h : m.instr = some i) : m.kind ≠ .undefined := by
  intro undefined
  rw [MicroOp.instr, undefined] at h
  cases h

/-- A micro-op dispatches to an instruction exactly when it is the instruction's own. -/
theorem microOpOf_instr_iff {a : Word} {b0 b1 b2 : Byte} {i : Instr} :
    (microOpOf a b0 b1 b2).instr = some i ↔ microOpOf a b0 b1 b2 = i.microOp a := by
  constructor
  · intro h
    have opcode := microOpOf_instr_opcode (instr_kind_ne_undefined h)
    rw [h] at opcode
    obtain ⟨kind, mode, operand⟩ := assemble_fields h
    have assembled := operand.trans (operandPart_assembleOperand _ b1 b2)
    rw [Instr.microOp, kind, mode, assembled, Option.some.inj opcode]
    rfl
  · intro h
    rw [h, instr_microOp]

/-- A micro-op is an instruction's when its opcode byte is, and its operand bytes make the instruction's operand. -/
theorem microOpOf_eq_microOp_iff {a : Word} {b0 b1 b2 : Byte} {i : Instr} :
    microOpOf a b0 b1 b2 = i.microOp a ↔ b0 = i.opcode ∧ assembleOperand i.mode.length b1 b2 = i.operand := by
  constructor
  · intro h
    have opcode : b0 = i.opcode := congrArg MicroOp.opcode h
    have mode : (opcodeEntry b0).2 = i.mode := congrArg MicroOp.mode h
    exact ⟨opcode, mode ▸ congrArg MicroOp.operand h⟩
  · rintro ⟨rfl, operand⟩
    rw [microOpOf, opcodeEntry_opcode, operand]
    rfl

/-! ## The decoder and the encoder -/

/-- The operand of an instruction has no bits beyond its operand bytes. -/
theorem operandPart_operand (i : Instr) : operandPart i.mode.length i.operand = i.operand :=
  have ⟨_, _, operand⟩ := assemble_fields (assemble_operand i)
  operand.symm

/-- The bytes that make an instruction's operand are its operand bytes, with any bytes after them. -/
theorem operandBytes_append_iff {i : Instr} {l rest : List Byte} :
    (i.mode.length ≤ l.length + 1 ∧ assembleOperand i.mode.length (l.getD 0 0) (l.getD 1 0) = i.operand ∧
        rest = l.drop (i.mode.length - 1)) ↔ l = i.operandBytes ++ rest := by
  have fits := operandPart_operand i
  rw [Instr.operandBytes]
  obtain length | length | length := i.mode.length_cases <;> rw [length] at fits ⊢
  · have none : i.operand = 0 := fits.symm
    simp [assembleOperand, none, eq_comm (a := rest)]
  · cases l with
    | nil => simp
    | cons x l => simp [assembleOperand, zext16_eq_iff fits, eq_comm (a := rest)]
  · rcases l with _ | ⟨x, _ | ⟨y, l⟩⟩
    · simp
    · simp
    · simp [assembleOperand, mkWord_eq_iff, and_assoc, eq_comm (a := rest)]

/-- What the decoder reads from a byte and those after it (30_encoding R270). -/
theorem decode_cons_eq_ok_iff {b0 : Byte} {l rest : List Byte} {i : Instr} :
    decode (b0 :: l) = .ok (i, rest) ↔
      (opcodeEntry b0).2.length ≤ l.length + 1 ∧ (microOpOf 0 b0 (l.getD 0 0) (l.getD 1 0)).instr = some i ∧
        rest = l.drop ((opcodeEntry b0).2.length - 1) := by
  rw [decode]
  split
  case isTrue short => exact iff_of_false nofun fun h => absurd h.1 (by omega)
  case isFalse enough =>
    split
    case h_1 none => rw [none]; exact iff_of_false nofun fun h => nomatch h.2.1
    case h_2 j some =>
      rw [some, Except.ok.injEq, Prod.mk.injEq, Option.some.injEq, eq_comm (a := rest)]
      exact ⟨fun h => ⟨by omega, h⟩, And.right⟩

/-- The decoder reads an instruction from exactly its bytes, and leaves what follows them. -/
theorem decode_eq_ok_iff {bytes rest : List Byte} {i : Instr} :
    decode bytes = .ok (i, rest) ↔ bytes = encode i ++ rest := by
  cases bytes with
  | nil => exact ⟨nofun, nofun⟩
  | cons b0 l =>
    rw [decode_cons_eq_ok_iff, microOpOf_instr_iff, microOpOf_eq_microOp_iff, encode, List.cons_append,
      List.cons.injEq, ← operandBytes_append_iff]
    constructor
    · rintro ⟨enough, ⟨rfl, operand⟩, left⟩
      rw [opcodeEntry_opcode] at enough left
      exact ⟨rfl, enough, operand, left⟩
    · rintro ⟨rfl, enough, operand, left⟩
      rw [opcodeEntry_opcode]
      exact ⟨enough, ⟨rfl, operand⟩, left⟩

/-- Settles O2: the direction of `decode_eq_ok_iff` from bytes to instruction. -/
theorem decodeOfEncode : Obligations.DecodeOfEncode := fun _ _ => decode_eq_ok_iff.mpr rfl

/-- Settles O3: the other direction. -/
theorem encodeOfDecode : Obligations.EncodeOfDecode := fun _ _ _ => decode_eq_ok_iff.mp

theorem encode_of_byteOperand {i : Instr} {b : Byte} (length : i.mode.length = 2) (operand : i.operand = zext16 b) :
    encode i = [i.opcode, b] := by
  rw [encode, Instr.operandBytes, length, operand, Laws.Encoding.lo_zext16]
  rfl

theorem decode_of_byteOperand {i : Instr} {c b : Byte} (opcode : i.opcode = c) (length : i.mode.length = 2)
    (operand : i.operand = zext16 b) : decode [c, b] = .ok (i, []) :=
  decode_eq_ok_iff.mpr (by rw [encode_of_byteOperand length operand, opcode, List.append_nil])

/-- Settles O1: each list is the bytes of its instruction, so the decoder reads it (`decode_eq_ok_iff`). -/
theorem decodesWrittenWords : Obligations.DecodesWrittenWords := by
  refine ⟨?_, ?_, ?_, ?_, ?_, ?_, ?_, ?_, ?_, ?_⟩ <;> exact decode_eq_ok_iff.mpr rfl

/-! ## Dispatch (30_encoding R271, R273) -/

theorem execute_of_instr {m : MicroOp} {i : Instr} (h : m.instr = some i) (s : State) : execute m s = exec i s := by
  rw [execute, if_neg (instr_kind_ne_undefined h), h]

theorem execute_undefined {m : MicroOp} (h : m.kind = .undefined) (s : State) :
    execute m s = .fault (.undefinedOpcode m.opcode m.addr) := by
  rw [execute, if_pos h]

theorem execute_dispatchMiss {m : MicroOp} {s : State} (defined : m.kind ≠ .undefined) (none : m.instr = none) :
    execute m s = .fault (.dispatchMiss m.kind m.mode) := by
  rw [execute, if_neg defined, none]

/-- Settles O4: a listed byte has kind `Undefined` (`opcodeEntry_undefined_iff`), so its cell is `noOpcode`; these give the
length, the end of the trace and the fault. -/
theorem undefinedOpcodesFault : Obligations.UndefinedOpcodesFault := by
  refine ⟨rfl, fun a b0 b1 b2 s => ⟨opcodeEntry_undefined_iff b0, fun listed => ?_⟩⟩
  have kind : (microOpOf a b0 b1 b2).kind = .undefined := (opcodeEntry_undefined_iff b0).mpr listed
  refine ⟨?_, ?_, execute_undefined kind s⟩
  · rw [microOpOf, opcodeEntry_of_undefined b0 kind]
    rfl
  · rw [MicroOp.endsTrace, kind]
    rfl

/-- The operand of a micro-op by its length (30_encoding R253). -/
theorem assembleOperand_values {len : Nat} (b1 b2 : Byte) :
    (len = 1 → assembleOperand len b1 b2 = 0) ∧
    (len = 2 → (assembleOperand len b1 b2).toNat = b1.toNat) ∧
    (len = 3 → (assembleOperand len b1 b2).toNat = b2.toNat * 256 + b1.toNat) := by
  refine ⟨?_, ?_, ?_⟩
  · rintro rfl; rfl
  · rintro rfl; exact zext16_toNat b1
  · rintro rfl; exact mkWord_toNat b2 b1

/-- Settles O5: the fields are those of `microOpOf`; a defined opcode has a row (`microOpOf_instr_opcode`), and its micro-op
is that instruction's (`microOpOf_instr_iff`). -/
theorem microOpsAssembleAndDispatch : Obligations.MicroOpsAssembleAndDispatch := by
  refine ⟨fun a b0 b1 b2 => ?_, fun a b0 b1 b2 s defined => ?_, fun m s => execute_dispatchMiss⟩
  · exact ⟨rfl, rfl, rfl, rfl, assembleOperand_values b1 b2⟩
  · obtain ⟨i, dispatched, -⟩ := Option.map_eq_some_iff.mp (microOpOf_instr_opcode defined)
    exact ⟨i, microOpOf_instr_iff.mp dispatched, execute_of_instr dispatched s⟩

end Sys2Proof

/-! # Proofs: operands and branches (30_encoding R257 to R267, 42_control_flags_misc R500 to R508)

The address operations are said once in arithmetic on naturals; the obligations read them off for each mode. -/

namespace Sys2Proof.Machine

/-! ## Addresses without a pointer -/

theorem add_zext16_toNat (base : Word) (index : Byte) :
    (base + zext16 index).toNat = (base.toNat + index.toNat) % 65536 := by
  rw [BitVec.toNat_add, zext16_toNat]

/-- Two addresses lie in different pages when their high bytes differ (30_encoding R268). -/
theorem hi_ne_iff (v w : Word) : hi v ≠ hi w ↔ v.toNat / 256 ≠ w.toNat / 256 := by
  rw [← BitVec.toNat_ne_iff_ne, hi_toNat, hi_toNat]

theorem indexed_crossed_iff (base : Word) (index : Byte) (s : State) :
    (indexed base index s).crossed = true ↔ (base.toNat + index.toNat) % 65536 / 256 ≠ base.toNat / 256 := by
  rw [← add_zext16_toNat, ← hi_ne_iff]
  exact decide_eq_true_iff

theorem zeroPage_indexed_toNat (op index : Byte) : (zext16 (op + index)).toNat = (op.toNat + index.toNat) % 256 := by
  rw [zext16_toNat, BitVec.toNat_add]

/-- Settles O6: each mode's address, by the arithmetic of `indexed` and of an index within zero page. -/
theorem effectiveAddresses : Obligations.EffectiveAddresses := by
  intro op w s
  refine ⟨rfl, zext16_toNat op, zeroPage_indexed_toNat op s.x, zeroPage_indexed_toNat op s.y, rfl,
    add_zext16_toNat w s.x, add_zext16_toNat w s.y, indexed_crossed_iff w s.x s, indexed_crossed_iff w s.y s, ?_, ?_⟩
  · simp only [List.forall_mem_cons]
    exact ⟨rfl, rfl, rfl, rfl, nofun⟩
  · simp only [List.forall_mem_cons]
    exact ⟨rfl, rfl, rfl, rfl, rfl, rfl, nofun⟩

/-! ## Pointers -/

theorem zext16_eq_ofNat {b : Byte} {n : Nat} (h : b.toNat = n) : zext16 b = BitVec.ofNat 16 n := by
  rw [← h, ← zext16_toNat, BitVec.ofNat_toNat, BitVec.setWidth_eq]

/-- The two reads of a zero-page pointer, the second wrapping within zero page (30_encoding R262, R263). -/
theorem zeroPagePointer_reads {b : Byte} {n : Nat} (h : b.toNat = n) (s : State) :
    zeroPagePointer b s = readPair (BitVec.ofNat 16 n) (BitVec.ofNat 16 ((n + 1) % 256)) s := by
  have next : (b + 1).toNat = (n + 1) % 256 := by rw [BitVec.toNat_add, h]; rfl
  rw [zeroPagePointer, zext16_eq_ofNat h, zext16_eq_ofNat next]

/-- The two reads of JMP's pointer, the second wrapping within the page (30_encoding R266). -/
theorem jumpPointer_reads (w : Word) (s : State) :
    jumpPointer w s = readPair w (BitVec.ofNat 16 (w.toNat / 256 * 256 + (w.toNat + 1) % 256)) s := by
  have wrapped : mkWord (hi w) (lo w + 1) = BitVec.ofNat 16 (w.toNat / 256 * 256 + (w.toNat + 1) % 256) := by
    have one : (1 : Byte).toNat = 1 := rfl
    apply BitVec.eq_of_toNat_eq
    rw [mkWord_toNat, hi_toNat, BitVec.toNat_add, lo_toNat, one, BitVec.toNat_ofNat]
    omega
  rw [jumpPointer, wrapped]

theorem readPair_toNat (l h : Word) (s : State) :
    (readPair l h s).value.toNat = (memRead h (memRead l s).state).value.toNat * 256 + (memRead l s).value.toNat :=
  mkWord_toNat _ _

/-- Settles O7: the pointer's reads are a `readPair`, which gives the word and the state; in zero page they change nothing
(`ea_state`). -/
theorem pointerAddresses : Obligations.PointerAddresses := by
  intro op w s
  have izx := zeroPagePointer_reads (BitVec.toNat_add op s.x) s
  have izy := zeroPagePointer_reads (b := op) rfl s
  have ind := jumpPointer_reads w s
  refine ⟨⟨?_, rfl, ?_, ea_state rfl s⟩, ⟨?_, ?_, ?_, ea_state rfl s⟩, ?_, rfl, ?_⟩
  · rw [MemOperand.ea, izx]; exact readPair_toNat _ _ s
  · rw [MemOperand.ea, izx]; rfl
  · rw [MemOperand.ea, izy, indexed, add_zext16_toNat, readPair_toNat]
  · rw [MemOperand.ea, indexed_crossed_iff, izy, readPair_toNat]
  · rw [MemOperand.ea, izy]; rfl
  · rw [MemOperand.ea, ind]; exact readPair_toNat _ _ s
  · rw [MemOperand.ea, ind]; rfl

/-! ## Branches -/

theorem branchNext_toNat (s : State) : (branchNext s).toNat = (s.pc.toNat + 2) % 65536 := by
  rw [branchNext, BitVec.toNat_add]
  rfl

/-- The target is the signed offset from the next instruction, modulo 2^16 (30_encoding R267). -/
theorem branchTarget_toNat (op : Byte) (s : State) :
    ((branchTarget op s).toNat : Int) = (s.pc.toNat + 2 + op.toInt) % 65536 := by
  have offset : ((sext16 op).toNat : Int) = op.toInt % 65536 := by
    rw [sext16, BitVec.signExtend, BitVec.toNat_ofInt]
    omega
  rw [branchTarget, BitVec.toNat_add, branchNext_toNat]
  omega

theorem branchExtra_eq (op : Byte) (s : State) :
    branchExtra op s = if (branchTarget op s).toNat / 256 ≠ (s.pc.toNat + 2) % 65536 / 256 then 2 else 1 := by
  rw [branchExtra, ← branchNext_toNat]
  exact if_congr (hi_ne_iff _ _) rfl rfl

/-- What a branch does, on its condition (42_control_flags_misc R500). -/
theorem branch_eq (taken : Bool) (opcode op : Byte) (s : State) :
    branch taken opcode op s = .next (if taken then
        { s with pc := branchTarget op s,
                 cycles := s.cycles + s.config.cycleTable.getD opcode.toNat 0 +
                   (if (branchTarget op s).toNat / 256 ≠ (s.pc.toNat + 2) % 65536 / 256 then 2 else 1) }
      else { s with pc := s.pc + 2, cycles := s.cycles + s.config.cycleTable.getD opcode.toNat 0 }) := by
  rw [← branchExtra_eq]
  cases taken <;> rfl

/-- Settles O43: each form is `branch` of its condition. -/
theorem branchesGoWhereTheirConditionSays : Obligations.BranchesGoWhereTheirConditionSays := by
  intro b s f hf
  fin_cases hf <;>
    exact ⟨⟨decode_of_byteOperand rfl rfl rfl, rfl⟩, fun _ => rfl, _, branchTarget_toNat b s, branch_eq _ _ b s⟩

end Sys2Proof.Machine

/-! # Proofs: the decode cache and the run (31_decode_cache_and_run, 52_machine_and_host R800 to R806)

`fetch_cases` says once what a fetch gives: the cursor's micro-op, the first of a cached trace, or the first of one built
now. `Shaped` is what the outcome of a machine with a well-shaped cache is, and each layer of a step has it: the micro-op,
the CPU step, the round, the host call. The cost of an instruction is that of the shared meaning it is, proved of each
meaning once and read against the sum of R311 by its class (30_encoding R254). -/

namespace Sys2Proof.Machine

/-! ## Decoding at an address (R304; 30_encoding R270) -/

theorem decodeAt_addr {s : State} {a : Word} {m : MicroOp} (h : decodeAt s a = .ok m) : m.addr = a :=
  congrArg MicroOp.addr (decodeAt_ok h)

theorem decodeAt_coherent {s : State} {a : Word} {m : MicroOp} (h : decodeAt s a = .ok m) : opCoherent m := by
  rw [decodeAt_ok h]
  exact microOpOf_coherent _ _ _ _

theorem MicroOp.wf_iff (m : MicroOp) : m.wf = true ↔
    m.len = m.mode.length ∧ (m.len = 1 → m.operand = 0) ∧ (m.len = 2 → m.operand.toNat < 256) := by
  simp only [MicroOp.wf, Bool.and_eq_true, Bool.or_eq_true, decide_eq_true_eq, ne_eq, and_assoc, imp_iff_not_or]

/-- A decoded micro-op is well-formed (30_encoding R251, R253). -/
theorem decodeAt_wf {s : State} {a : Word} {m : MicroOp} (h : decodeAt s a = .ok m) : m.wf = true := by
  rw [decodeAt_ok h, MicroOp.wf_iff]
  obtain ⟨one, two, -⟩ := assembleOperand_values (len := (opcodeEntry (fetchByte s a)).2.length)
    (fetchByte s (a + 1)) (fetchByte s (a + 2))
  exact ⟨rfl, one, fun h => (two h).symm ▸ BitVec.isLt _⟩

theorem decodeAt_len_le {s : State} {a : Word} {m : MicroOp} (h : decodeAt s a = .ok m) : m.len ≤ 3 := by
  have len := ((MicroOp.wf_iff m).mp (decodeAt_wf h)).1
  have := m.mode.length_cases
  omega

/-! ## Building a trace (R304, R305) -/

theorem buildFrom_of_error {s : State} {a : Word} {r : Refusal} (h : decodeAt s a = .error r) (n : Nat) :
    buildFrom s n a = .error r := by
  unfold buildFrom
  rw [h]

/-- A trace begins with the micro-op decoded at its address. -/
theorem buildFrom_first {s : State} {n : Nat} {a : Word} {t : Trace} (h : buildFrom s n a = .ok t) :
    decodeAt s a = .ok t.first := by
  revert h
  fun_cases buildFrom s n a <;> rintro ⟨⟩ <;> assumption

/-- Where the build goes on after a micro-op, the micro-op ends no trace and its instruction ends below $10000. -/
theorem stopsBuild_eq_false {m : MicroOp} (h : stopsBuild m = false) (len : m.len ≤ 3) :
    m.endsTrace = false ∧ m.addr.toNat + m.len < 65536 := by
  simp only [stopsBuild, Bool.or_eq_false_iff, decide_eq_false_iff_not] at h
  obtain ⟨⟨ends, notBelow⟩, notZero⟩ := h
  have notZero : (nextAddr m).toNat ≠ 0 := fun zero => notZero (BitVec.eq_of_toNat_eq zero)
  rw [nextAddr, BitVec.toNat_add, BitVec.toNat_ofNat] at notBelow notZero
  exact ⟨ends, by omega⟩

/-- What `Build` gives has the shape of a trace keyed at its address, and coherent micro-ops. -/
theorem buildFrom_shaped {s : State} {n : Nat} {a : Word} {t : Trace} (h : buildFrom s n a = .ok t) :
    t.wf a = true ∧ ∀ m ∈ t.ops, opCoherent m := by
  have single {a : Word} {m : MicroOp} (decoded : decodeAt s a = .ok m) :
      Trace.wf a { first := m, rest := [] } = true ∧ ∀ o ∈ [m], opCoherent o := by
    rw [List.forall_mem_singleton]
    refine ⟨?_, decodeAt_coherent decoded⟩
    simp [Trace.wf, Trace.ops, opsWfFrom, decodeAt_addr decoded, decodeAt_wf decoded]
  fun_induction buildFrom s n a generalizing t with
  | case1 => cases h
  | case2 a m decoded => cases h; exact single decoded
  | case3 a m decoded n stops => cases h; exact single decoded
  | case4 => cases h
  | case5 a m decoded n goesOn u built ih =>
    cases h
    obtain ⟨wf, coherent⟩ := ih built
    obtain ⟨ends, below⟩ := stopsBuild_eq_false (by simpa using goesOn) (decodeAt_len_le decoded)
    refine ⟨?_, List.forall_mem_cons.mpr ⟨decodeAt_coherent decoded, coherent⟩⟩
    rw [nextAddr, decodeAt_addr decoded] at wf
    rw [decodeAt_addr decoded] at below
    simp only [Trace.wf, Trace.ops, opsWfFrom, decodeAt_addr decoded, decodeAt_wf decoded, ends, below, Bool.and_eq_true,
      decide_eq_true_eq] at wf ⊢
    exact ⟨by simp, wf⟩

/-! ## The shape of a trace -/

theorem opsWfFrom_first {a : Word} {m : MicroOp} {l : List MicroOp} (h : opsWfFrom a (m :: l) = true) :
    m.addr = a ∧ m.wf = true := by
  cases l <;> simp_all [opsWfFrom]

/-- Each micro-op of a trace but the first stands where the one before it ends. -/
theorem opsWfFrom_next {a : Word} {l : List MicroOp} (h : opsWfFrom a l = true) {i : Nat} {m n : MicroOp}
    (hm : l[i]? = some m) (hn : l[i + 1]? = some n) : n.addr = nextAddr m := by
  induction l generalizing a i with
  | nil => cases hm
  | cons o l ih =>
    cases l with
    | nil => cases hn
    | cons p l =>
      have addr := (opsWfFrom_first h).1
      simp only [opsWfFrom, Bool.and_eq_true] at h
      cases i with
      | zero =>
        cases hm
        cases hn
        rw [(opsWfFrom_first h.2).1, nextAddr, addr]
      | succ i => exact ih h.2 hm hn

theorem opsWfFrom_wf {a : Word} {l : List MicroOp} (h : opsWfFrom a l = true) : ∀ m ∈ l, m.wf = true := by
  induction l generalizing a with
  | nil => nofun
  | cons o l ih =>
    refine List.forall_mem_cons.mpr ⟨(opsWfFrom_first h).2, ?_⟩
    cases l with
    | nil => nofun
    | cons p l =>
      simp only [opsWfFrom, Bool.and_eq_true] at h
      exact ih h.2

/-! ## The cache as a map with rising keys (10_state R57) -/

theorem keysRise_cons {e : Word × Trace} {c : List (Word × Trace)} :
    keysRise (e :: c) ↔ (∀ d ∈ c.head?, e.1.toNat < d.1.toNat) ∧ keysRise c := by
  cases c <;> simp [keysRise]

theorem cacheInsert_head {c : List (Word × Trace)} {k : Word} {t : Trace} {n : Nat}
    (head : ∀ d ∈ c.head?, n < d.1.toNat) (hk : n < k.toNat) : ∀ d ∈ (cacheInsert c k t).head?, n < d.1.toNat := by
  cases c with
  | nil => simpa [cacheInsert] using hk
  | cons e c =>
    unfold cacheInsert
    split_ifs
    · simpa using hk
    · simpa using head

theorem cacheInsert_keysRise {c : List (Word × Trace)} {k : Word} (t : Trace) (rise : keysRise c)
    (miss : cacheLookup c k = none) : keysRise (cacheInsert c k t) := by
  induction c with
  | nil => trivial
  | cons e c ih =>
    obtain ⟨j, u⟩ := e
    have other : j ≠ k := by rintro rfl; simp [cacheLookup] at miss
    rw [cacheLookup, if_neg other] at miss
    unfold cacheInsert
    split_ifs with below
    · exact ⟨below, rise⟩
    · obtain ⟨head, tail⟩ := keysRise_cons.mp rise
      have above : j.toNat < k.toNat := by
        have := BitVec.toNat_ne_iff_ne.mpr other
        omega
      exact keysRise_cons.mpr ⟨cacheInsert_head head above, ih tail miss⟩

/-! ## What a fetch gives (R303) -/

/-- A fetch continues in the cursor's trace, or begins the trace cached at PC, or the one it builds there. -/
inductive Fetched (s : State) : FetchOut → Prop where
  | continued (k : Word) (i : Nat) (t : Trace) (m : MicroOp) (cur : s.cur = some (k, i))
      (cached : cacheLookup s.cache k = some t) (op : t.ops[i]? = some m) (addr : m.addr = s.pc) : Fetched s ⟨m, s⟩
  | found (t : Trace) (cached : cacheLookup s.cache s.pc = some t) : Fetched s ⟨t.first, s.setCur (some (s.pc, 0))⟩
  | built (t : Trace) (miss : cacheLookup s.cache s.pc = none) (built : build s s.pc = .ok t) :
      Fetched s ⟨t.first, (s.setCache (cacheInsert s.cache s.pc t)).setCur (some (s.pc, 0))⟩

theorem cursorOp_eq_some {s : State} {m : MicroOp} (h : cursorOp s = some m) :
    ∃ k i t, s.cur = some (k, i) ∧ cacheLookup s.cache k = some t ∧ t.ops[i]? = some m ∧ m.addr = s.pc := by
  revert h
  fun_cases cursorOp s <;> rintro ⟨⟩
  case case4 k i cur t cached op addr => exact ⟨k, i, t, cur, cached, op, addr⟩

theorem fetch_cases {s : State} {f : FetchOut} (h : fetch s = .ok f) : Fetched s f := by
  unfold fetch at h
  split at h
  · rename_i m here
    cases h
    obtain ⟨k, i, t, cur, cached, op, addr⟩ := cursorOp_eq_some here
    exact .continued k i t m cur cached op addr
  · unfold traceAtPc at h
    cases cached : cacheLookup s.cache s.pc with
    | some t =>
      rw [cached] at h
      cases h
      exact .found t cached
    | none =>
      rw [cached] at h
      cases made : build s s.pc with
      | error r => rw [made] at h; cases h
      | ok t =>
        rw [made] at h
        cases h
        exact .built t cached made

/-! ## The shape of the cache and the cursor -/

/-- The cursor names the micro-op, in a cached trace. -/
def State.CursorAt (s : State) (m : MicroOp) : Prop :=
  ∃ k i t, s.cur = some (k, i) ∧ cacheLookup s.cache k = some t ∧ t.ops[i]? = some m

theorem State.CacheShaped.cursorAt_addr {s : State} {m : MicroOp} (shaped : s.CacheShaped) (h : s.CursorAt m) :
    m.addr = s.pc := by
  obtain ⟨k, i, t, cur, cached, op⟩ := h
  obtain ⟨u, same, -, addr⟩ := shaped.cursor k i cur
  rw [cached] at same
  cases same
  exact addr m op

/-- The micro-op the cursor names is well-formed and coherent. -/
theorem State.CacheShaped.cursorAt_op {s : State} {m : MicroOp} (shaped : s.CacheShaped) (h : s.CursorAt m) :
    m.wf = true ∧ opCoherent m := by
  obtain ⟨k, i, t, -, cached, op⟩ := h
  obtain ⟨wf, coherent⟩ := shaped.traces _ (cacheLookup_mem cached)
  have mem := List.mem_of_getElem? op
  exact ⟨opsWfFrom_wf wf m mem, coherent m mem⟩

theorem State.CacheShaped.noCursor {s t : State} (shaped : s.CacheShaped) (cache : t.cache = s.cache)
    (cur : t.cur = none) : t.CacheShaped where
  keys := cache ▸ shaped.keys
  traces := cache ▸ shaped.traces
  cursor := by rw [cur]; nofun

theorem State.CacheShaped.congr {s t : State} (shaped : s.CacheShaped) (cache : t.cache = s.cache := by rfl)
    (cur : t.cur = s.cur := by rfl) (pc : t.pc = s.pc := by rfl) : t.CacheShaped where
  keys := cache ▸ shaped.keys
  traces := cache ▸ shaped.traces
  cursor := by rw [cache, cur, pc]; exact shaped.cursor

/-- A shaped state stays so when a trace of the right shape is cached at a new key. -/
theorem State.CacheShaped.insert {s : State} (shaped : s.CacheShaped) {k : Word} {t : Trace}
    (miss : cacheLookup s.cache k = none) (new : t.wf k = true ∧ ∀ m ∈ t.ops, opCoherent m) :
    (s.setCache (cacheInsert s.cache k t)).CacheShaped where
  keys := cacheInsert_keysRise t shaped.keys miss
  traces := fun e he => by
    obtain rfl | old := mem_cacheInsert he
    · exact new
    · exact shaped.traces e old
  cursor := fun j i cur => by
    obtain ⟨u, cached, place⟩ := shaped.cursor j i cur
    exact ⟨u, cacheLookup_insert_of_some miss cached, place⟩

/-- A shaped state stays so when the cursor goes to the start of the trace cached at PC. -/
theorem State.CacheShaped.startTrace {s : State} (shaped : s.CacheShaped) {t : Trace}
    (cached : cacheLookup s.cache s.pc = some t) :
    (s.setCur (some (s.pc, 0))).CacheShaped ∧ (s.setCur (some (s.pc, 0))).CursorAt t.first := by
  refine ⟨{ keys := shaped.keys, traces := shaped.traces, cursor := ?_ }, s.pc, 0, t, rfl, cached, rfl⟩
  rintro k i ⟨⟩
  refine ⟨t, cached, Nat.zero_le _, ?_⟩
  rintro m ⟨⟩
  exact (opsWfFrom_first (shaped.traces _ (cacheLookup_mem cached)).1).1

/-- A fetch leaves a shaped state, whose cursor names what it fetched (R303). -/
theorem Fetched.shaped {s : State} {f : FetchOut} (h : Fetched s f) (shaped : s.CacheShaped) :
    f.state.CacheShaped ∧ f.state.CursorAt f.op := by
  cases h with
  | continued k i t m cur cached op => exact ⟨shaped, k, i, t, cur, cached, op⟩
  | found t cached => exact shaped.startTrace cached
  | built t miss built =>
    refine (shaped.insert miss (buildFrom_shaped built)).startTrace ?_
    exact (cacheLookup_insert _ _ _ t miss).trans (if_pos rfl)

/-- An instruction and an interrupt entry keep the cache and the cursor (R306, R307). -/
theorem Moves.cache_cur {s t : State} (h : Moves s t) : t.cache = s.cache ∧ t.cur = s.cur := by
  refine h.keeps (P := fun u => u.cache = s.cache ∧ u.cur = s.cur) (fun u v m k => ?_) ⟨rfl, rfl⟩
  have one : v.cache = u.cache ∧ v.cur = u.cur := by
    cases m with
    | read a => exact ⟨(memRead_onlyRead a u).cache, (memRead_onlyRead a u).cur⟩
    | write a d => exact ⟨(memWrite_onlyWritten a d u).cache, (memWrite_onlyWritten a d u).cur⟩
    | reg r v => cases r <;> exact ⟨rfl, rfl⟩
    | status | pc | cycles => exact ⟨rfl, rfl⟩
  exact ⟨one.1.trans k.1, one.2.trans k.2⟩

theorem cursorAfter_transfer {m : MicroOp} (h : m.kind.isControlTransfer = true) (c : Option (Word × Nat)) :
    cursorAfter m c = none := if_pos h

theorem cursorAfter_next {m : MicroOp} (h : m.kind.isControlTransfer = false) (k : Word) (i : Nat) :
    cursorAfter m (some (k, i)) = some (k, i + 1) := by
  unfold cursorAfter
  rw [h]
  rfl

/-- An instruction of the table moves the cursor on to what stands at the new PC, or drops it (R306). -/
theorem Runs.shaped {s t : State} {m : MicroOp} {i : Instr} (runs : Runs s t i.mode.length i.kind.isControlTransfer)
    (instr : m.instr = some i) (shaped : s.CacheShaped) (here : s.CursorAt m) :
    (t.setCur (cursorAfter m t.cur)).CacheShaped := by
  obtain ⟨cache, cur⟩ := runs.moves.cache_cur
  obtain ⟨kind, mode, -⟩ := assemble_fields instr
  cases transfer : m.kind.isControlTransfer with
  | true => exact shaped.noCursor cache (cursorAfter_transfer transfer _)
  | false =>
    have len : m.len = i.mode.length := mode ▸ ((MicroOp.wf_iff m).mp (shaped.cursorAt_op here).1).1
    have pc : t.pc = nextAddr m := by rw [runs.pc (kind ▸ transfer), ← len, nextAddr, shaped.cursorAt_addr here]
    obtain ⟨k, j, tr, curs, cached, op⟩ := here
    rw [cur, curs, cursorAfter_next transfer]
    refine ⟨cache ▸ shaped.keys, cache ▸ shaped.traces, ?_⟩
    rintro _ _ ⟨⟩
    refine ⟨tr, cache ▸ cached, (List.getElem?_eq_some_iff.mp op).1, fun n hn => ?_⟩
    exact (opsWfFrom_next (shaped.traces _ (cacheLookup_mem cached)).1 op hn).trans pc.symm

/-! ## Every step -/

/-- A coherent micro-op of a defined opcode is in a row of the table (30_encoding R273). -/
theorem opCoherent.dispatches {m : MicroOp} (h : opCoherent m) (defined : m.kind ≠ .undefined) :
    ∃ i, m.instr = some i := by
  have kind : m.kind = (opcodeEntry m.opcode).1 := congrArg Prod.fst h
  have mode : m.mode = (opcodeEntry m.opcode).2 := congrArg Prod.snd h
  have row := assemble_opcodeEntry m.opcode (kind ▸ defined)
  rw [← kind, ← mode, assemble_opcode_congr _ _ 0 m.operand] at row
  obtain ⟨i, instr, -⟩ := Option.map_eq_some_iff.mp row
  exact ⟨i, instr⟩

/-- An outcome whose next state is shaped, and which is not the fault `DispatchMiss`. -/
def Shaped (o : Out) : Prop := (∀ t, o = .next t → t.CacheShaped) ∧ ∀ k m, o ≠ .fault (.dispatchMiss k m)

theorem Shaped.next {s : State} (h : s.CacheShaped) : Shaped (.next s) := by
  refine ⟨fun t e => ?_, by simp⟩
  cases e
  exact h

theorem Shaped.refused (r : Refusal) : Shaped (.refused r) := by simp [Shaped]

theorem settle_execute_shaped {s : State} {m : MicroOp} (shaped : s.CacheShaped) (here : s.CursorAt m) :
    Shaped (settle m (execute m s)) := by
  by_cases undefined : m.kind = .undefined
  · rw [execute_undefined undefined]
    simp [settle, Shaped]
  · obtain ⟨i, instr⟩ := (shaped.cursorAt_op here).2.dispatches undefined
    obtain ⟨t, next, runs⟩ := exec_runs i s
    rw [execute_of_instr instr, next]
    exact .next (runs.shaped instr shaped here)

theorem enterInterrupt_shaped {s : State} (shaped : s.CacheShaped) : (enterInterrupt s).CacheShaped := by
  refine shaped.noCursor ?_ ?_ <;> rw [enterInterrupt, enterNmi_eq, enterIrq_eq] <;> split <;> rfl

theorem cpuStep_shaped {s : State} (shaped : s.CacheShaped) : Shaped (cpuStep s) := by
  unfold cpuStep
  split
  · exact .next (enterInterrupt_shaped shaped)
  · split
    · exact .refused _
    · rename_i f fetched
      obtain ⟨shaped, here⟩ := (fetch_cases fetched).shaped shaped
      exact settle_execute_shaped shaped here

theorem OnlyDrawn.cacheShaped {s t : State} (h : OnlyDrawn s t) (shaped : s.CacheShaped) : t.CacheShaped :=
  shaped.congr (by rw [h.rest]) (by rw [h.rest]) (by rw [h.rest])

theorem OnlyWritten.cacheShaped {s t : State} (h : OnlyWritten s t) (shaped : s.CacheShaped) : t.CacheShaped :=
  shaped.congr h.cache h.cur h.pc

theorem endRun_shaped {s : State} (shaped : s.CacheShaped) : (endRun s).CacheShaped :=
  ((tick_onlyDrawn _ _).cacheShaped (shaped.congr (t := s.setHost { s.host with running := none }))).congr

theorem runRound_shaped {s : State} (n : Nat) (shaped : s.CacheShaped) : Shaped (runRound n s) := by
  have round := cpuStep_shaped shaped
  unfold runRound
  split
  · cases outcome : cpuStep s with
    | next t =>
      have shaped := round.1 t outcome
      refine .next ?_
      rw [closeRun]
      split
      · exact shaped
      · exact endRun_shaped shaped
    | fault e => rw [outcome] at round; exact round
    | refused r => exact .refused r
  · exact .next (endRun_shaped shaped)

theorem serve_shaped {s : State} (c : HostCall) (shaped : s.CacheShaped) : Shaped (serve c s) := by
  cases c with
  | runCycles n => exact runRound_shaped _ (shaped.noCursor rfl rfl)
  | regRead r => exact .next ((ppuRegRead_onlyRead _ s).onlyWritten.cacheShaped shaped).congr
  | regWrite r v => exact .next ((ppuRegWrite_onlyWritten _ v s).cacheShaped shaped)
  | setInput b => exact .next shaped.congr
  | syncSave =>
    refine .next ?_
    rw [hostSyncSave]
    split
    · exact shaped
    · exact shaped.congr
  | destroy => exact .next shaped.congr

theorem nextCall_shaped {s : State} (shaped : s.CacheShaped) : (nextCall s).2.CacheShaped := by
  rw [nextCall]
  split
  · exact shaped
  · exact shaped.congr

/-- Settles O55: a fetch leaves the cursor at a coherent micro-op of a shaped cache, so the micro-op dispatches and its
instruction leaves the cursor where PC goes; nothing else in a step moves PC under a cursor. -/
theorem stepKeepsTheCacheShape : Obligations.StepKeepsTheCacheShape := by
  intro s shaped
  show Shaped (step s)
  unfold step stepMachine
  split
  · exact .refused _
  · split
    · exact runRound_shaped _ shaped
    · exact serve_shaped _ (nextCall_shaped shaped)

/-! ## A coherent cache is transparent (R310) -/

/-- While every cached byte is the byte memory holds, a fetch gives what decoding at PC afresh gives. -/
theorem Fetched.decodes {s : State} {f : FetchOut} (h : Fetched s f) (shaped : s.CacheShaped) (coherent : s.TraceCoherent) :
    decodeAt s s.pc = .ok f.op := by
  cases h with
  | continued k i t m cur cached op addr =>
    exact addr ▸ coherent _ (cacheLookup_mem cached) m (List.mem_of_getElem? op)
  | found t cached =>
    have mem := cacheLookup_mem cached
    have addr : t.first.addr = s.pc := (opsWfFrom_first (shaped.traces _ mem).1).1
    exact addr ▸ coherent _ mem t.first List.mem_cons_self
  | built t miss built => exact buildFrom_first built

/-- Settles O51: `Fetched.decodes`, and the frame of a fetch. -/
theorem cacheIsTransparent : Obligations.CacheIsTransparent := fun _ _ shaped coherent fetched =>
  ⟨(fetch_cases fetched).decodes shaped coherent, fetch_state fetched⟩

/-! ## The layers of a step as equations (R300, R302) -/

theorem step_of_running {s : State} {n : Nat} (alive : s.host.alive = true) (running : s.host.running = some n) :
    step s = runRound n s := by
  simp [step, stepMachine, alive, running]

theorem runRound_of_next {s t : State} {n : Nat} (more : s.cycles < n) (next : cpuStep s = .next t) :
    runRound n s = .next (closeRun n t) := by
  simp [runRound, more, next]

theorem runRound_of_fault {s : State} {n : Nat} {e : Fault} (more : s.cycles < n) (fault : cpuStep s = .fault e) :
    runRound n s = .fault e := by
  simp [runRound, more, fault]

theorem runRound_of_refused {s : State} {n : Nat} {r : Refusal} (more : s.cycles < n) (refused : cpuStep s = .refused r) :
    runRound n s = .refused r := by
  simp [runRound, more, refused]

theorem cpuStep_of_fetch {s : State} {f : FetchOut} (quiet : interruptPending s = false) (fetched : fetch s = .ok f) :
    cpuStep s = settle f.op (execute f.op f.state) := by
  simp [cpuStep, quiet, fetched]

theorem cpuStep_of_fetch_error {s : State} {r : Refusal} (quiet : interruptPending s = false)
    (failed : fetch s = .error r) : cpuStep s = .refused r := by
  simp [cpuStep, quiet, failed]

/-- The bytes that decode to an instruction are those its micro-op is decoded from (30_encoding R270). -/
theorem decodeAt_eq_microOp {s : State} {a : Word} {m : MicroOp} {i : Instr} {rest : List Byte} (h : decodeAt s a = .ok m)
    (bytes : decode [(memRead a s).value, (memRead (a + 1) s).value, (memRead (a + 2) s).value] = .ok (i, rest)) :
    m = i.microOp a := by
  obtain ⟨-, instr, -⟩ := decode_cons_eq_ok_iff.mp bytes
  rw [decodeAt_ok h]
  exact microOpOf_instr_iff.mp instr

/-- Settles O49: a coherent cache gives the micro-op of the bytes at PC, which dispatches to its instruction. -/
theorem stepRunsTheDecodedInstruction : Obligations.StepRunsTheDecodedInstruction := by
  intro s n i rest f alive running more quiet shaped coherent bytes fetched
  have op := decodeAt_eq_microOp ((fetch_cases fetched).decodes shaped coherent) bytes
  refine ⟨op, fetch_state fetched, ?_⟩
  have instr : f.op.instr = some i := op ▸ instr_microOp i s.pc
  obtain ⟨t, next, -⟩ := exec_runs i f.state
  have stepped : cpuStep s = .next (t.setCur (cursorAfter f.op t.cur)) := by
    rw [cpuStep_of_fetch quiet fetched, execute_of_instr instr, next, settle]
  rw [step_of_running alive running, runRound_of_next more stepped, next]

/-! ## The stops of a step (R304, R312, 60_exceptions R905) -/

theorem executable_eq_false_iff (a : Word) : executable a = false ↔ 0x2000 ≤ a.toNat ∧ a.toNat < 0x6000 := by
  simp [executable]

/-- A decode is refused only at one of the bytes of its instruction, outside the executable range. -/
theorem decodeAt_error {s : State} {a : Word} {r : Refusal} (h : decodeAt s a = .error r) :
    ∃ b, r = .fetchOutsideMemory b ∧ executable b = false ∧ (b = a ∨ b = a + 1 ∨ b = a + 2) := by
  unfold decodeAt at h
  dsimp only at h
  split_ifs at h with op0 op1 op2
  · cases h
    exact ⟨a, rfl, by simpa using op0, .inl rfl⟩
  · cases h
    simp only [Bool.and_eq_true, Bool.not_eq_true'] at op1
    exact ⟨a + 1, rfl, op1.2, .inr (.inl rfl)⟩
  · cases h
    simp only [Bool.and_eq_true, Bool.not_eq_true'] at op2
    exact ⟨a + 2, rfl, op2.2, .inr (.inr rfl)⟩

theorem decodeAt_of_not_executable (s : State) {a : Word} (h : executable a = false) :
    decodeAt s a = .error (.fetchOutsideMemory a) := by
  simp [decodeAt, h]

/-- A fetch that has to build is refused where the first byte cannot be read. -/
theorem fetch_of_decode_error {s : State} {r : Refusal} (noCursor : cursorOp s = none)
    (miss : cacheLookup s.cache s.pc = none) (h : decodeAt s s.pc = .error r) : fetch s = .error r := by
  simp only [fetch, traceAtPc, noCursor, miss, build, buildFrom_of_error h]

/-- Settles O50: each stop by the equations of the layers of a step, and the refusals of a decode. -/
theorem stepStops : Obligations.StepStops := by
  refine ⟨fun s dead => ?_, fun s n alive running more quiet => ⟨?_, fun f fetched undefined => ?_⟩, fun s a r h => ?_⟩
  · simp [step, stepMachine, dead]
  · intro noCursor miss low high
    have refused := decodeAt_of_not_executable s ((executable_eq_false_iff s.pc).mpr ⟨low, high⟩)
    rw [step_of_running alive running]
    exact runRound_of_refused more (cpuStep_of_fetch_error quiet (fetch_of_decode_error noCursor miss refused))
  · rw [step_of_running alive running]
    refine runRound_of_fault more ?_
    rw [cpuStep_of_fetch quiet fetched, execute_undefined undefined, settle]
  · obtain ⟨b, refusal, outside, byte⟩ := decodeAt_error h
    obtain ⟨low, high⟩ := (executable_eq_false_iff b).mp outside
    exact ⟨b, refusal, low, high, byte⟩

/-! ## The host calls (52_machine_and_host R802 to R806, R821) -/

/-- With no batch in progress the step serves the oldest listed call. -/
theorem step_of_call {s : State} {c : HostCall} {rest : List HostCall} (alive : s.host.alive = true)
    (running : s.host.running = none) (calls : s.host.calls = c :: rest) :
    step s = serve c (s.setHost { s.host with calls := rest }) := by
  simp [step, stepMachine, nextCall, alive, running, calls]

/-- The register the host names is the one at `reg mod 8` of the list (50_ppu R600, 52_machine_and_host R802). -/
theorem ofIndex_of_mem_byte {b : Byte} {r : PpuReg}
    (h : r ∈ [PpuReg.ctrl, .mask, .status, .oamAddr, .oamData, .scroll, .addr, .data][b.toNat % 8]?) :
    PpuReg.ofIndex (b.extractLsb' 0 3) = r := by
  have index : (b.extractLsb' 0 3).toNat = b.toNat % 8 := by rw [BitVec.extractLsb'_toNat, Nat.shiftRight_zero]
  rw [← index, registers_getElem] at h
  exact Option.some.inj h

theorem hostRegRead_eq (b : Byte) (s : State) :
    hostRegRead b s =
      (let o := ppuRegRead (PpuReg.ofIndex (b.extractLsb' 0 3)) s
       { o.state with host := { s.host with out := .regValue o.value :: s.host.out } }) := by
  rw [← (ppuRegRead_onlyRead (PpuReg.ofIndex (b.extractLsb' 0 3)) s).host]
  rfl

/-- A count of 0 or less runs nothing and gives 0 (D47). -/
theorem serve_runCycles_nonpos {n : Int} (h : n ≤ 0) (s : State) :
    serve (.runCycles n) s = .next { s with
      cycles := 0, cur := none, host := { s.host with running := none, out := .ran 0 :: s.host.out } } := by
  rw [serve, Int.toNat_of_nonpos h, runRound, if_neg (Nat.not_lt_zero _)]
  rfl

/-- Settles O59: `step_of_call` gives the call served, each call's own equation what it does, and `runRound_of_next` the
end of a batch. -/
theorem hostCallsDoWhatTheyName : Obligations.HostCallsDoWhatTheyName := by
  refine ⟨fun s rest alive running => ?_, fun s t n alive running more next => ?_⟩
  · intro asked idle
    have served (c : HostCall) : step (asked c) = serve c idle := step_of_call alive running rfl
    refine ⟨fun b r hr => ⟨?_, fun d => ?_⟩, fun b => served _, fun unbound => ?_, fun file bound => ?_, served _,
      fun n nonpos => ?_, fun n _ => ?_⟩
    · rw [served, serve, hostRegRead_eq, ofIndex_of_mem_byte hr]
    · rw [served, serve, hostRegWrite, ofIndex_of_mem_byte hr]
    · rw [served, serve, hostSyncSave, show idle.host.save = none from unbound]
    · rw [served, serve, hostSyncSave, show idle.host.save = some file from bound]
      rfl
    · rw [served, serve_runCycles_nonpos nonpos, ← running]
    · rw [served, serve, Int.toNat_natCast]
      exact (step_of_running (by exact alive) rfl).symm
  · rw [step_of_running alive running, runRound_of_next more next]
    rfl

/-! ## What the bus adds to the cycle count (50_ppu R606) -/

/-- What a CPU write adds to the cycle count: `oamDmaCycles` at $4014. -/
def writeCost (s : State) (a : Word) : Nat := if a = 0x4014 then s.config.oamDmaCycles else 0

theorem cpuRegion_eq_oamDma_iff (c : Config) (a : Word) : cpuRegion c a = .oamDma ↔ a = 0x4014 := by
  have iff : a = 0x4014 ↔ a.toNat = 0x4014 := BitVec.toNat_inj.symm
  rw [iff]
  refine ⟨fun h => ?_, cpuRegion_oamDma c⟩
  unfold cpuRegion at h
  split_ifs at h
  assumption

theorem windowWrite_cycles (w : Window) (a : Nat) (d : Byte) (s : State) : (windowWrite w a d s).cycles = s.cycles := by
  unfold windowWrite
  split <;> rfl

theorem vWrite_cycles (a : VAddr) (d : Byte) (s : State) : (vWrite a d s).cycles = s.cycles := by
  rw [vWrite]
  split_ifs
  · exact windowWrite_cycles _ _ d s
  · rfl
  · rfl

theorem ppuRegWrite_cycles (r : PpuReg) (d : Byte) (s : State) : (ppuRegWrite r d s).cycles = s.cycles := by
  cases r
  case data => exact vWrite_cycles _ d s
  case scroll => rw [ppuRegWrite, scrollWrite]; split <;> rfl
  case addr => rw [ppuRegWrite, addrWrite]; split <;> rfl
  all_goals rfl

theorem dmaFrom_cycles (page : Byte) (n : Nat) (s : State) : (dmaFrom page n s).cycles = s.cycles := by
  induction n generalizing s with
  | zero => rfl
  | succ n ih => exact (ih _).trans (memRead_onlyRead _ s).cycles

theorem memWrite_cycles (a : Word) (d : Byte) (s : State) : (memWrite a d s).cycles = s.cycles + writeCost s a := by
  by_cases dma : a = 0x4014
  · rw [writeCost, if_pos dma, ← (dmaFrom_onlyWritten d 256 s).config, ← dmaFrom_cycles d 256 s]
    simp only [memWrite, (cpuRegion_eq_oamDma_iff s.config a).mpr dma]
    rfl
  · have region := mt (cpuRegion_eq_oamDma_iff s.config a).mp dma
    rw [writeCost, if_neg dma]
    unfold memWrite
    split
    · rfl
    · exact ppuRegWrite_cycles _ d s
    · contradiction
    · rfl
    · rfl
    · rfl
    · exact windowWrite_cycles _ _ d s
    · rfl

/-! ## What each shared meaning costs (R311) -/

/-- An outcome that, if the machine goes on, has counted n cycles. -/
def Costs (s : State) (o : Out) (n : Nat) : Prop := ∀ t, o = .next t → t.cycles = s.cycles + n

theorem costs_next {s t : State} {n : Nat} (h : t.cycles = s.cycles + n) : Costs s (.next t) n := by
  intro u e
  cases e
  exact h

/-- The end of an instruction whose accesses have counted k cycles. -/
theorem costs_retire {s t : State} {k : Nat} (cycles : t.cycles = s.cycles + k) (config : t.config = s.config)
    (opcode : Byte) (len : Nat) (crossed : Bool) :
    Costs s (.next (retire opcode len crossed t)) (baseCost s opcode + pageCost s crossed + k) := by
  refine costs_next ?_
  rw [baseCost, pageCost, ← config, Nat.add_comm _ k, ← Nat.add_assoc, ← cycles]
  rfl

/-- The end of an instruction whose accesses have counted none. -/
theorem costs_retire_plain {s t : State} (cycles : t.cycles = s.cycles) (config : t.config = s.config) (opcode : Byte)
    (len : Nat) : Costs s (.next (retire opcode len false t)) (baseCost s opcode) :=
  costs_retire (k := 0) cycles config opcode len false

theorem costs_retireTo {s t : State} (cycles : t.cycles = s.cycles) (config : t.config = s.config) (opcode : Byte)
    (target : Word) : Costs s (.next (retireTo opcode target t)) (baseCost s opcode) := by
  refine costs_next ?_
  rw [baseCost, ← config, ← cycles]
  rfl

theorem setReg_cycles (s : State) (r : Reg) (v : Byte) : (s.setReg r v).cycles = s.cycles := by cases r <;> rfl

theorem setReg_config (s : State) (r : Reg) (v : Byte) : (s.setReg r v).config = s.config := by cases r <;> rfl

theorem loadReg_costs (r : Reg) (opcode : Byte) (o : Source) (s : State) :
    Costs s (loadReg r opcode o s) (baseCost s opcode + pageCost s (o.load s).crossed) := by
  refine costs_retire (k := 0) ?_ ?_ opcode _ _
  · exact (setReg_cycles _ r _).trans (load_onlyRead o s).cycles
  · exact (setReg_config _ r _).trans (load_onlyRead o s).config

theorem accumulate_costs (f : Byte → Byte → Byte → AluOut) (opcode : Byte) (o : Source) (s : State) :
    Costs s (accumulate f opcode o s) (baseCost s opcode + pageCost s (o.load s).crossed) := by
  refine costs_retire (k := 0) ?_ ?_ opcode _ _
  · exact (load_onlyRead o s).cycles
  · exact (load_onlyRead o s).config

theorem testReg_costs (f : Byte → Byte → Byte → Byte) (r : Reg) (opcode : Byte) (o : Source) (s : State) :
    Costs s (testReg f r opcode o s) (baseCost s opcode + pageCost s (o.load s).crossed) := by
  refine costs_retire (k := 0) ?_ ?_ opcode _ _
  · exact (load_onlyRead o s).cycles
  · exact (load_onlyRead o s).config

/-- A write in a state that reads have left. -/
theorem OnlyRead.memWrite_cycles {s u : State} (h : OnlyRead s u) (a : Word) (d : Byte) :
    (memWrite a d u).cycles = s.cycles + writeCost s a := by
  rw [Machine.memWrite_cycles, writeCost, writeCost, h.cycles, h.config]

theorem storeReg_costs (r : Reg) (opcode : Byte) (m : MemOperand) (s : State) :
    Costs s (storeReg r opcode m s) (baseCost s opcode + writeCost s (m.ea s).addr) :=
  have read := ea_onlyRead m s
  costs_retire (read.memWrite_cycles _ _) ((memWrite_onlyWritten _ _ _).config.trans read.config) opcode _ false

theorem modifyMem_costs (f : Byte → Byte → AluOut) (opcode : Byte) (m : MemOperand) (s : State) :
    Costs s (modifyMem f opcode m s) (baseCost s opcode + writeCost s (m.ea s).addr) := by
  have read := (ea_onlyRead m s).trans (memRead_onlyRead (m.ea s).addr _)
  refine costs_retire ?_ ?_ opcode _ false
  · exact read.memWrite_cycles _ _
  · exact (memWrite_onlyWritten _ _ _).config.trans read.config

theorem modifyReg_costs (f : Byte → Byte → AluOut) (r : Reg) (opcode : Byte) (s : State) :
    Costs s (modifyReg f r opcode s) (baseCost s opcode) := by
  refine costs_retire_plain ?_ ?_ opcode 1
  · exact setReg_cycles s r _
  · exact setReg_config s r _

theorem transfer_costs (src dst : Reg) (opcode : Byte) (s : State) :
    Costs s (transfer src dst opcode s) (baseCost s opcode) := by
  refine costs_retire_plain ?_ ?_ opcode 1
  · exact setReg_cycles s dst _
  · exact setReg_config s dst _

theorem branch_costs (taken : Bool) (opcode op : Byte) (s : State) :
    Costs s (branch taken opcode op s) (baseCost s opcode + if taken then branchExtra op s else 0) := by
  cases taken
  · exact costs_next rfl
  · exact costs_next (Nat.add_assoc _ _ _)

/-! ## The cost by class of instruction (30_encoding R254, R268) -/

/-- The cost of an instruction: the sum of R311. -/
def instrCost (i : Instr) (s : State) : Nat := baseCost s i.opcode + pageCrossCycles i s + branchCycles i s + dmaCycles i s

/-- The operand of an instruction of the read class. -/
def sourceOf (i : Instr) : Source :=
  match memOperandOf i with
  | some m => .mem m
  | none => .imm (lo i.operand)

/-- The read class, the storing classes and the branches have no kind in common. -/
theorem classes_apart (k : Kind) (p : Byte) :
    (isReadKind k = true → isStoreKind k = false ∧ branchTaken k p = false) ∧
    (isStoreKind k = true → isReadKind k = false ∧ branchTaken k p = false) := by
  cases k <;> simp [isReadKind, isStoreKind, branchTaken]

theorem branchCycles_of_not_taken {i : Instr} {s : State} (h : branchTaken i.kind s.p = false) : branchCycles i s = 0 := by
  rw [branchCycles, h]
  rfl

theorem dmaCycles_of_not_store {i : Instr} (s : State) (h : isStoreKind i.kind = false) : dmaCycles i s = 0 := by
  unfold dmaCycles
  split <;> simp [h]

theorem pageCrossCycles_of_not_read {i : Instr} (s : State) (h : isReadKind i.kind = false) : pageCrossCycles i s = 0 := by
  unfold pageCrossCycles
  split <;> simp [h]

/-- Of the operands of a read only those in the modes abx, aby and izy can cross a page. -/
theorem pageCrossCycles_of_read {i : Instr} (s : State) (h : isReadKind i.kind = true) :
    pageCrossCycles i s = pageCost s ((sourceOf i).load s).crossed := by
  unfold pageCrossCycles sourceOf memOperandOf
  cases i.mode <;> simp [h, pageCost, Source.load, MemOperand.ea]

theorem instrCost_of_read {i : Instr} (s : State) (h : isReadKind i.kind = true) :
    instrCost i s = baseCost s i.opcode + pageCost s ((sourceOf i).load s).crossed := by
  obtain ⟨noStore, noBranch⟩ := (classes_apart i.kind s.p).1 h
  rw [instrCost, pageCrossCycles_of_read s h, branchCycles_of_not_taken noBranch, dmaCycles_of_not_store s noStore]
  rfl

theorem instrCost_of_store {i : Instr} {m : MemOperand} (s : State) (h : isStoreKind i.kind = true)
    (operand : memOperandOf i = some m) : instrCost i s = baseCost s i.opcode + writeCost s (m.ea s).addr := by
  obtain ⟨noRead, noBranch⟩ := (classes_apart i.kind s.p).2 h
  rw [instrCost, pageCrossCycles_of_not_read s noRead, branchCycles_of_not_taken noBranch, dmaCycles, operand, writeCost]
  simp [h]

/-- A relative instruction has no effective address. -/
theorem instrCost_of_branch {i : Instr} {op : Byte} (s : State) (mode : i.mode = .rel) (operand : i.operand = zext16 op) :
    instrCost i s = baseCost s i.opcode + if branchTaken i.kind s.p then branchExtra op s else 0 := by
  have noAddress : memOperandOf i = none := by rw [memOperandOf, mode]
  have extra : branchCycles i s = if branchTaken i.kind s.p then branchExtra op s else 0 := by
    rw [branchCycles, operand, Laws.Encoding.lo_zext16, branchExtra]
    exact if_congr Iff.rfl (if_congr (hi_ne_iff _ _).symm rfl rfl) rfl
  rw [instrCost, pageCrossCycles, dmaCycles, noAddress, extra]
  rfl

/-- Every other instruction costs its table count: it reads no operand, stores to none and does not branch. -/
theorem instrCost_of_other {i : Instr} (s : State) (noRead : isReadKind i.kind = false)
    (noStore : isStoreKind i.kind = false ∨ memOperandOf i = none) (noBranch : branchTaken i.kind s.p = false) :
    instrCost i s = baseCost s i.opcode := by
  have noDma : dmaCycles i s = 0 := by
    obtain kind | operand := noStore
    · exact dmaCycles_of_not_store s kind
    · rw [dmaCycles, operand]
  rw [instrCost, pageCrossCycles_of_not_read s noRead, branchCycles_of_not_taken noBranch, noDma]
  rfl

/-! ## Every instruction -/

/-- Every instruction costs the sum of R311. -/
theorem exec_costs (i : Instr) (s : State) : Costs s (exec i s) (instrCost i s) := by
  cases i
  case ldaImm | ldaZp | ldaZpx | ldaAbs | ldaAbx | ldaAby | ldaIzx | ldaIzy | ldxImm | ldxZp | ldxZpy | ldxAbs |
      ldxAby | ldyImm | ldyZp | ldyZpx | ldyAbs | ldyAbx =>
    rw [instrCost_of_read s rfl]
    simp only [sourceOf, memOperandOf, Instr.mode, Instr.operand, Laws.Encoding.lo_zext16]
    exact loadReg_costs _ _ _ s
  case adcImm | adcZp | adcZpx | adcAbs | adcAbx | adcAby | adcIzx | adcIzy | sbcImm | sbcZp | sbcZpx | sbcAbs |
      sbcAbx | sbcAby | sbcIzx | sbcIzy | andImm | andZp | andZpx | andAbs | andAbx | andAby | andIzx | andIzy |
      oraImm | oraZp | oraZpx | oraAbs | oraAbx | oraAby | oraIzx | oraIzy | eorImm | eorZp | eorZpx | eorAbs |
      eorAbx | eorAby | eorIzx | eorIzy =>
    rw [instrCost_of_read s rfl]
    simp only [sourceOf, memOperandOf, Instr.mode, Instr.operand, Laws.Encoding.lo_zext16]
    exact accumulate_costs _ _ _ s
  case bitZp | bitAbs | cmpImm | cmpZp | cmpZpx | cmpAbs | cmpAbx | cmpAby | cmpIzx | cmpIzy | cpxImm | cpxZp |
      cpxAbs | cpyImm | cpyZp | cpyAbs =>
    rw [instrCost_of_read s rfl]
    simp only [sourceOf, memOperandOf, Instr.mode, Instr.operand, Laws.Encoding.lo_zext16]
    exact testReg_costs _ _ _ _ s
  case staZp | staZpx | staAbs | staAbx | staAby | staIzx | staIzy | stxZp | stxZpy | stxAbs | styZp | styZpx |
      styAbs =>
    rw [instrCost_of_store s rfl rfl]
    simp only [Instr.operand, Laws.Encoding.lo_zext16]
    exact storeReg_costs _ _ _ s
  case incZp | incZpx | incAbs | incAbx | decZp | decZpx | decAbs | decAbx | aslZp | aslZpx | aslAbs | aslAbx | lsrZp |
      lsrZpx | lsrAbs | lsrAbx | rolZp | rolZpx | rolAbs | rolAbx | rorZp | rorZpx | rorAbs | rorAbx =>
    rw [instrCost_of_store s rfl rfl]
    simp only [Instr.operand, Laws.Encoding.lo_zext16]
    exact modifyMem_costs _ _ _ s
  case bcc | bcs | beq | bmi | bne | bpl | bvc | bvs =>
    rw [instrCost_of_branch s rfl rfl]
    exact branch_costs _ _ _ s
  case aslAcc | lsrAcc | rolAcc | rorAcc =>
    rw [instrCost_of_other s rfl (.inr rfl) rfl]
    exact modifyReg_costs _ _ _ s
  all_goals rw [instrCost_of_other s rfl (.inl rfl) rfl]
  case inx | iny | dex | dey => exact modifyReg_costs _ _ _ s
  case tax | tay | txa | tya | tsx => exact transfer_costs _ _ _ s
  case txs | nop | clc | cld | cli | clv | sec | sed | sei => exact costs_retire_plain rfl rfl _ _
  case pha | php => exact costs_retire_plain (by rw [push_eq]; rfl) (by rw [push_eq]; rfl) _ _
  case pla | plp => exact costs_retire_plain (by rw [pull_eq]; rfl) (by rw [pull_eq]; rfl) _ _
  case jmpAbs | jmpInd => exact costs_retireTo (ea_onlyRead _ s).cycles (ea_onlyRead _ s).config _ _
  case jsr => exact costs_retireTo (by rw [pushWord_eq]; rfl) (by rw [pushWord_eq]; rfl) _ _
  case rts => exact costs_retireTo (by rw [pullWord_eq]; rfl) (by rw [pullWord_eq]; rfl) _ _
  case rti =>
    refine costs_next ?_
    rw [returnFromException_eq]
    rfl
  case brk =>
    refine costs_next ?_
    rw [takeException_eq _ _ _ _ vectors_in_rom.2.1.1 vectors_in_rom.2.1.2]
    rfl

/-- Settles O8: `exec_costs`, with the sum written out. -/
theorem costOfEveryInstruction : Obligations.CostOfEveryInstruction := by
  intro i s t h
  have cost := exec_costs i s t h
  rw [instrCost, ← Nat.add_assoc, ← Nat.add_assoc, ← Nat.add_assoc] at cost
  exact cost

end Sys2Proof.Machine

/-! # Proofs: loads, stores, transfers and the stack (40_load_store_transfer)

Every form of a class has one meaning, so its statement is that meaning's equation, read with the fields of the form. What
holds of any form, its bytes and the end of its instruction, is said first. -/

namespace Sys2Proof.Machine

/-! ## The bytes of a form (30_encoding R250, R253, R269) -/

/-- The operand word that the operand bytes make (30_encoding R253). -/
def MemOperand.word : MemOperand → Word
  | .zp op | .zpx op | .zpy op | .izx op | .izy op => zext16 op
  | .abs op | .abx op | .aby op | .ind op => op

/-- The operand word of a read. -/
def Source.word : Source → Word
  | .imm op => zext16 op
  | .mem m => m.word

theorem operandBytes_of_mem {i : Instr} {m : MemOperand} (length : i.mode.length = m.length) (word : i.operand = m.word) :
    i.operandBytes = m.bytes := by
  rw [Instr.operandBytes, length, word]
  cases m
  case zp op | zpx op | zpy op | izx op | izy op => exact congrArg (fun l => [l]) (Laws.Encoding.lo_zext16 op)
  case abs | abx | aby | ind => rfl

theorem operandBytes_of_source {i : Instr} {o : Source} (length : i.mode.length = o.length) (word : i.operand = o.word) :
    i.operandBytes = o.bytes := by
  cases o
  case imm op =>
    rw [Instr.operandBytes, length, word]
    exact congrArg (fun l => [l]) (Laws.Encoding.lo_zext16 op)
  case mem m => exact operandBytes_of_mem length word

/-- A form is encoded as its rule says if its opcode byte and operand bytes are its instruction's (`decode_eq_ok_iff`). -/
theorem Form.encoded_of {ω : Type} {f : Form ω} {operands : List Byte} (opcode : f.instr.opcode = f.opcode)
    (bytes : f.instr.operandBytes = operands) (base : defaultConfig.cycleTable.getD f.opcode.toNat 0 = f.base) :
    f.Encoded operands :=
  ⟨decode_eq_ok_iff.mpr (by rw [encode, opcode, bytes, List.append_nil]), base⟩

/-! ## The end of an instruction (10_state R52, 31_decode_cache_and_run R311) -/

theorem Source.length_eq (o : Source) : o.length = 1 + o.bytes.length := by
  cases o
  case imm => rfl
  case mem m => exact m.length_eq

/-- The end of an instruction that costs its table count, after accesses that keep PC. -/
theorem retire_eq {ω : Type} (f : Form ω) (operands : List Byte) {s t : State} (pc : t.pc = s.pc) :
    retire f.opcode (1 + operands.length) false t = { t with pc := f.after operands s, cycles := f.cycles t } := by
  rw [Form.after, ← pc]
  rfl

/-- The end of a read: its own accesses change neither PC nor the cycle count, and a page cross counts. -/
theorem retire_load (f : Form Source) {s t : State} (pc : t.pc = s.pc) (cycles : t.cycles = s.cycles)
    (config : t.config = s.config) :
    retire f.opcode f.operand.length (f.operand.load s).crossed t =
      { t with pc := f.after f.operand.bytes s, cycles := f.readCycles s } := by
  have cost : t.cycles + (baseCost t f.opcode + pageCost t (f.operand.load s).crossed) = f.readCycles s := by
    simp only [Form.readCycles, Form.cycles, baseCost, pageCost, cycles, config, Bool.and_eq_true, Nat.add_assoc]
  rw [Form.after, ← pc, ← Source.length_eq, ← cost]
  rfl

/-! ## Loads (R400 to R402) -/

/-- The meanings of the loads. -/
theorem loadForms_exec (b : Byte) (w : Word) :
    (∀ f ∈ ldaForms b w, exec f.instr = loadReg .a f.opcode f.operand) ∧
    (∀ f ∈ ldxForms b w, exec f.instr = loadReg .x f.opcode f.operand) ∧
    (∀ f ∈ ldyForms b w, exec f.instr = loadReg .y f.opcode f.operand) := by
  refine ⟨fun f hf => ?_, fun f hf => ?_, fun f hf => ?_⟩ <;> fin_cases hf <;> rfl

theorem loadForms_encoded {b : Byte} {w : Word} {f : Form Source} (h : f ∈ ldaForms b w ++ ldxForms b w ++ ldyForms b w) :
    f.Encoded f.operand.bytes := by
  fin_cases h <;> exact Form.encoded_of rfl (operandBytes_of_source rfl rfl) rfl

/-- A load puts the operand in its register and takes N and Z from it. -/
theorem loadReg_eq (r : Reg) (f : Form Source) (s : State) :
    ∃ p, FlagsFromResult s.p p (f.operand.load s).value ∧
      loadReg r f.opcode f.operand s = .next { ((f.operand.load s).state.setReg r (f.operand.load s).value).setP p with
        pc := f.after f.operand.bytes s, cycles := f.readCycles s } := by
  have read := load_onlyRead f.operand s
  have flags := setNZ_flags (f.operand.load s).state.p (f.operand.load s).value
  rw [read.p] at flags
  refine ⟨_, flags, ?_⟩
  rw [loadReg, read.p, retire_load f]
  · exact (setReg_pc _ r _).trans read.pc
  · exact (setReg_cycles _ r _).trans read.cycles
  · exact (setReg_config _ r _).trans read.config

/-- Settles O32: `loadReg_eq` for each of the three registers; the reads stay within `OnlyRead`. -/
theorem loadsSetRegisterAndFlags : Obligations.LoadsSetRegisterAndFlags := by
  intro b w s
  obtain ⟨lda, ldx, ldy⟩ := loadForms_exec b w
  refine ⟨fun f hf => ⟨loadForms_encoded hf, load_onlyRead _ s, (load_onlyRead _ s).peek⟩, fun f hf => ?_, fun f hf => ?_,
    fun f hf => ?_⟩
  · rw [lda f hf]
    exact loadReg_eq .a f s
  · rw [ldx f hf]
    exact loadReg_eq .x f s
  · rw [ldy f hf]
    exact loadReg_eq .y f s

/-! ## Stores (R403 to R405) -/

theorem storeForms_encoded {b : Byte} {w : Word} {f : Form MemOperand}
    (h : f ∈ staForms b w ++ stxForms b w ++ styForms b w) : f.Encoded f.operand.bytes := by
  fin_cases h <;> exact Form.encoded_of rfl (operandBytes_of_mem rfl rfl) rfl

theorem storeForms_storing {b : Byte} {w : Word} {f : Form MemOperand}
    (h : f ∈ staForms b w ++ stxForms b w ++ styForms b w) : f ∈ storingForms b w := by
  simp only [storingForms, List.mem_append] at h ⊢
  tauto

/-- A store whose address is formed with no side effect makes one bus write. -/
theorem storeReg_eq (r : Reg) {f : Form MemOperand} {s : State} (ea : (f.operand.ea s).state = s) :
    let t := memWrite (f.operand.ea s).addr (s.reg r) s
    storeReg r f.opcode f.operand s = .next { t with pc := f.after f.operand.bytes s, cycles := f.cycles t } := by
  rw [storeReg, ea, MemOperand.length_eq, retire_eq f _ (memWrite_onlyWritten _ _ s).pc]

/-- Settles O33: `storeReg_eq` for each of the three registers. -/
theorem storesWriteTheRegister : Obligations.StoresWriteTheRegister := by
  intro b w s
  obtain ⟨sta, stx, sty⟩ := storeForms_exec b w
  have ea {f : Form MemOperand} (h : f ∈ staForms b w ++ stxForms b w ++ styForms b w) : (f.operand.ea s).state = s :=
    ea_state (storingForms_direct (storeForms_storing h)) s
  refine ⟨fun f hf => ⟨storeForms_encoded hf, ea hf⟩, fun f hf => ?_, fun f hf => ?_, fun f hf => ?_⟩
  · rw [sta f hf]
    exact storeReg_eq .a (ea (by simp [hf]))
  · rw [stx f hf]
    exact storeReg_eq .x (ea (by simp [hf]))
  · rw [sty f hf]
    exact storeReg_eq .y (ea (by simp [hf]))

/-! ## Transfers (R406 to R411) -/

/-- Settles O35: each transfer copies its source and sets N and Z from it (`setNZ_flags`); TXS only copies. -/
theorem transfersCopyARegister : Obligations.TransfersCopyARegister := by
  refine fun s => ⟨fun f hf => ?_, Form.encoded_of rfl rfl rfl, rfl⟩
  fin_cases hf <;> exact ⟨Form.encoded_of rfl rfl rfl, _, setNZ_flags s.p _, rfl⟩

/-! ## The stack (R412 to R415) -/

/-- The end of a push: the byte written at $0100 + S, and S decremented. -/
theorem retire_push {ω : Type} (f : Form ω) (v : Byte) (s : State) :
    retire f.opcode 1 false (push v s) = { s with
      ram := s.ram.write (0x100 + s.sp.toNat) v, sp := s.sp - 1, pc := s.pc + 1, cycles := f.cycles s } := by
  rw [push_eq]
  rfl

/-- Settles O36: `retire_push` and `pull_eq` give the stack byte and S. -/
theorem stackInstructions : Obligations.StackInstructions := by
  intro s top pha php pla plp
  have pulled : pull s = { value := top, state := s.setSp (s.sp + 1) } := pull_eq s
  refine ⟨fun f hf => ?encoded, ?pha, ?php, ⟨setNZ s.p top, setNZ_flags s.p top, ?pla⟩, ?plp, fun d k => ⟨fun ne => ?other,
    fun canonical => ?same⟩⟩
  case encoded => fin_cases hf <;> exact Form.encoded_of rfl rfl rfl
  case pha => exact congrArg Host.Outcome.next (retire_push pha s.a s)
  case php => exact congrArg Host.Outcome.next (retire_push php (s.p ||| 0x30) s)
  case pla =>
    change execPla s = _
    rw [execPla, pulled]
    rfl
  case plp =>
    change execPlp s = _
    rw [execPlp, pulled]
    rfl
  case other => exact Memory.read_write_other _ _ _ d ne
  case same => exact (Memory.read_write canonical _ d _).trans (if_pos rfl)

end Sys2Proof.Machine

/-! # Proofs: arithmetic, logic and shifts (41_arith_logic_shift)

Each class of instruction has one shared meaning, whose equation over the state before is said once (`accumulate_eq`,
`testReg_eq`, `modifyMem_eq`); what is left of a statement is what its operation on bytes computes. -/

namespace Sys2Proof.Machine

/-! ## Reads into A and P (30_encoding R254) -/

theorem load_readFrame (o : Source) (s : State) : ReadFrame s (o.load s).state :=
  ⟨load_onlyRead o s, (load_onlyRead o s).peek⟩

/-- The meanings of ADC, SBC, AND, ORA and EOR. -/
theorem accumulateForms_exec (b : Byte) (w : Word) :
    (∀ f ∈ adcForms b w, exec f.instr = accumulate adc f.opcode f.operand) ∧
    (∀ f ∈ sbcForms b w, exec f.instr = accumulate sbc f.opcode f.operand) ∧
    (∀ f ∈ andForms b w, exec f.instr = accumulate andOp f.opcode f.operand) ∧
    (∀ f ∈ oraForms b w, exec f.instr = accumulate oraOp f.opcode f.operand) ∧
    (∀ f ∈ eorForms b w, exec f.instr = accumulate eorOp f.opcode f.operand) := by
  refine ⟨fun f hf => ?_, fun f hf => ?_, fun f hf => ?_, fun f hf => ?_, fun f hf => ?_⟩ <;> fin_cases hf <;> rfl

theorem arithmeticForms_encoded {b : Byte} {w : Word} {f : Form Source} (h : f ∈ adcForms b w ++ sbcForms b w) :
    f.Encoded f.operand.bytes := by
  fin_cases h <;> exact Form.encoded_of rfl (operandBytes_of_source rfl rfl) rfl

theorem logicForms_encoded {b : Byte} {w : Word} {f : Form Source}
    (h : f ∈ andForms b w ++ oraForms b w ++ eorForms b w) : f.Encoded f.operand.bytes := by
  fin_cases h <;> exact Form.encoded_of rfl (operandBytes_of_source rfl rfl) rfl

/-- The operand is combined with the A and P of before its reads, which change neither. -/
theorem accumulate_eq (op : Byte → Byte → Byte → AluOut) (f : Form Source) (s : State) :
    accumulate op f.opcode f.operand s = .next { (f.operand.load s).state with
      a := (op s.a (f.operand.load s).value s.p).result, p := (op s.a (f.operand.load s).value s.p).p,
      pc := f.after f.operand.bytes s, cycles := f.readCycles s } := by
  have read := load_onlyRead f.operand s
  rw [accumulate, read.a, read.p, retire_load f]
  · rfl
  · exact read.pc
  · exact read.cycles
  · exact read.config

/-! ## ADC and SBC (R450, R451) -/

/-- The carry into an addition: flag C as a number. -/
def carryIn (p : Byte) : Nat := if p.getLsbD 0 then 1 else 0

/-- ADC's sum as a number, below 512 (41_arith_logic_shift R450). -/
def adcTotal (a m p : Byte) : Nat := a.toNat + m.toNat + carryIn p

theorem carryIn_le (p : Byte) : carryIn p ≤ 1 := by
  rw [carryIn]
  split <;> omega

theorem ofBool_flagC_toNat (p : Byte) : (BitVec.ofBool (flagC p)).toNat = carryIn p := by
  rw [carryIn, flagC]
  cases p.getLsbD 0 <;> rfl

theorem byte_top_bit (x : Byte) : x.getLsbD 7 = decide (128 ≤ x.toNat) := BitVec.msb_eq_decide x

/-- Nine bits hold the whole sum. -/
theorem adcSum_toNat (a m p : Byte) : (adcSum a m (flagC p)).toNat = adcTotal a m p := by
  have carry := carryIn_le p
  have bit := ofBool_flagC_toNat p
  simp only [adcSum, adcTotal, BitVec.toNat_add, BitVec.toNat_setWidth, bit]
  omega

theorem adc_result (a m p : Byte) : (adc a m p).result = BitVec.ofNat 8 (adcTotal a m p) := by
  apply BitVec.eq_of_toNat_eq
  rw [adc, BitVec.toNat_setWidth, adcSum_toNat, BitVec.toNat_ofNat]

/-- The carry out of bit 7. -/
theorem adcSum_top_bit (a m p : Byte) : (adcSum a m (flagC p)).getLsbD 8 = decide (256 ≤ adcTotal a m p) := by
  rw [← adcSum_toNat]
  exact BitVec.msb_eq_decide (adcSum a m (flagC p))

theorem adcCarryIn7_eq (a m p : Byte) :
    adcCarryIn7 a m (flagC p) = decide (128 ≤ a.toNat % 128 + m.toNat % 128 + carryIn p) := by
  have carry := carryIn_le p
  have bit := ofBool_flagC_toNat p
  have low (x : Byte) : (x &&& 0x7F).toNat = x.toNat % 128 := Nat.and_two_pow_sub_one_eq_mod x.toNat 7
  rw [adcCarryIn7, byte_top_bit]
  simp only [BitVec.toNat_add, BitVec.toNat_setWidth, low, bit]
  congr 2
  omega

theorem adc_flagC (a m p : Byte) : flagC (adc a m p).p = decide (256 ≤ adcTotal a m p) := by
  rw [← adcSum_top_bit]
  simp [adc, setNZ]

theorem adc_flagV (a m p : Byte) : flagV (adc a m p).p =
    (decide (128 ≤ a.toNat % 128 + m.toNat % 128 + carryIn p) ^^ decide (256 ≤ adcTotal a m p)) := by
  rw [← adcSum_top_bit, ← adcCarryIn7_eq]
  simp [adc, setNZ]

theorem adc_flagZ (a m p : Byte) : flagZ (adc a m p).p = decide ((adc a m p).result = 0) := by
  simp [adc, setNZ]

theorem adc_flagN (a m p : Byte) : flagN (adc a m p).p = (adc a m p).result.getLsbD 7 := by
  simp [adc, setNZ]

/-- The carries into and out of bit 7 differ exactly when both addends have one sign and the sum the other. -/
theorem carries_differ_iff_sign_rule {a m c : Nat} (ha : a < 256) (hm : m < 256) (hc : c ≤ 1) :
    (decide (128 ≤ a % 128 + m % 128 + c) ^^ decide (256 ≤ a + m + c)) =
      ((decide (128 ≤ a) ^^ decide (128 ≤ (a + m + c) % 256)) &&
        (decide (128 ≤ m) ^^ decide (128 ≤ (a + m + c) % 256))) := by
  rw [Bool.eq_iff_iff]
  simp only [Bool.xor_iff_ne, Bool.and_eq_true, ne_eq, decide_eq_decide]
  omega

/-- The sign rule for ADC's V. -/
theorem adc_flagV_sign_rule (a m p : Byte) : flagV (adc a m p).p =
    ((a ^^^ (adc a m p).result) &&& (m ^^^ (adc a m p).result)).getLsbD 7 := by
  rw [adc_flagV, adc_result, BitVec.getLsbD_and, BitVec.getLsbD_xor, BitVec.getLsbD_xor, byte_top_bit, byte_top_bit,
    byte_top_bit, BitVec.toNat_ofNat]
  exact carries_differ_iff_sign_rule a.isLt m.isLt (carryIn_le p)

/-- Settles O37: `accumulate_eq` for ADC, with the nine-bit sum read as a number. -/
theorem adcAddsWithCarry : Obligations.AdcAddsWithCarry := by
  intro b w s f hf m c sum r
  have result : (adc s.a m s.p).result = r := adc_result s.a m s.p
  have zero : decide (r = 0) = decide (sum % 256 = 0) :=
    decide_eq_decide.mpr (by rw [← BitVec.toNat_inj, BitVec.toNat_ofNat]; rfl)
  have negative : r.getLsbD 7 = decide (128 ≤ sum % 256) := by
    rw [byte_top_bit, BitVec.toNat_ofNat]
  refine ⟨arithmeticForms_encoded (List.mem_append_left _ hf), load_readFrame _ s, (adc s.a m s.p).p,
    adc_flagC s.a m s.p, adc_flagV s.a m s.p, ?sign, ?zero, ?negative, adc_writes s.a m s.p, ?next⟩
  case sign => rw [adc_flagV_sign_rule, result]
  case zero => rw [adc_flagZ, result, zero]
  case negative => rw [adc_flagN, result, negative]
  case next => rw [(accumulateForms_exec b w).1 f hf, accumulate_eq, result]

/-- SBC's borrow: 1 when flag C is clear. -/
def borrowIn (p : Byte) : Int := if p.getLsbD 0 then 0 else 1

theorem borrowIn_add_carryIn (p : Byte) : borrowIn p + carryIn p = 1 := by
  rw [borrowIn, carryIn]
  cases p.getLsbD 0 <;> rfl

/-- SBC's sum is the difference, 256 too high: the complement of m is 255 - m. -/
theorem adcTotal_not (a m p : Byte) : adcTotal a (~~~m) p + m.toNat + borrowIn p = (a.toNat : Int) + 256 := by
  have carry := borrowIn_add_carryIn p
  have complement : (~~~m).toNat = 255 - m.toNat := BitVec.toNat_not
  rw [adcTotal, complement]
  omega

theorem sbc_result (a m p : Byte) :
    (sbc a m p).result = BitVec.ofInt 8 ((a.toNat : Int) - m.toNat - borrowIn p) := by
  have total := adcTotal_not a m p
  apply BitVec.eq_of_toNat_eq
  rw [sbc, adc_result, BitVec.toNat_ofNat, BitVec.toNat_ofInt]
  omega

/-- No borrow is a carry out. -/
theorem sbc_flagC (a m p : Byte) : flagC (sbc a m p).p = decide (m.toNat + borrowIn p ≤ (a.toNat : Int)) := by
  have total := adcTotal_not a m p
  rw [sbc, adc_flagC]
  exact decide_eq_decide.mpr (by omega)

/-- The carries into and out of bit 7 differ exactly when the signed difference does not fit in a byte. -/
theorem sbc_flagV (a m p : Byte) : flagV (sbc a m p).p =
    decide (a.toInt - m.toInt - borrowIn p < -128 ∨ 127 < a.toInt - m.toInt - borrowIn p) := by
  have bound := carryIn_le p
  have carry := borrowIn_add_carryIn p
  have total := adcTotal_not a m p
  have complement : (~~~m).toNat = 255 - m.toNat := BitVec.toNat_not
  rw [sbc, adc_flagV, complement, BitVec.toInt_eq_toNat_cond, BitVec.toInt_eq_toNat_cond, Bool.eq_iff_iff]
  simp only [Bool.xor_iff_ne, ne_eq, decide_eq_decide, decide_eq_true_eq]
  split_ifs <;> omega

/-- Settles O38: `accumulate_eq` for SBC, whose sum with the complement is the difference (`adcTotal_not`). -/
theorem sbcSubtractsWithBorrow : Obligations.SbcSubtractsWithBorrow := by
  intro b w s f hf m borrow diff r
  have result : (sbc s.a m s.p).result = r := sbc_result s.a m s.p
  refine ⟨arithmeticForms_encoded (List.mem_append_right _ hf), load_readFrame _ s, (sbc s.a m s.p).p,
    sbc_flagC s.a m s.p, sbc_flagV s.a m s.p, ?zero, ?negative, sbc_writes s.a m s.p, result.symm, rfl, ?next⟩
  case zero => rw [← result, sbc, adc_flagZ]
  case negative => rw [← result, sbc, adc_flagN]
  case next => rw [(accumulateForms_exec b w).2.1 f hf, accumulate_eq, result]

/-! ## AND, ORA and EOR (R452 to R454) -/

/-- Settles O39: `accumulate_eq` for each of the three operations, whose flags are `setNZ`'s. -/
theorem logicOnTheAccumulator : Obligations.LogicOnTheAccumulator := by
  intro b w s
  obtain ⟨-, -, and, ora, eor⟩ := accumulateForms_exec b w
  refine ⟨fun f hf => ⟨logicForms_encoded hf, load_readFrame _ s⟩, fun f hf => ?_, fun f hf => ?_, fun f hf => ?_⟩
  · exact ⟨_, setNZ_flags s.p _, by rw [and f hf, accumulate_eq]; rfl⟩
  · exact ⟨_, setNZ_flags s.p _, by rw [ora f hf, accumulate_eq]; rfl⟩
  · exact ⟨_, setNZ_flags s.p _, by rw [eor f hf, accumulate_eq]; rfl⟩

/-! ## BIT and the compares (R455 to R458) -/

/-- The meanings of BIT, CMP, CPX and CPY. -/
theorem testForms_exec (b : Byte) (w : Word) :
    (∀ f ∈ bitForms b w, exec f.instr = testReg bitFlags .a f.opcode f.operand) ∧
    (∀ f ∈ cmpForms b w, exec f.instr = testReg compareFlags .a f.opcode f.operand) ∧
    (∀ f ∈ cpxForms b w, exec f.instr = testReg compareFlags .x f.opcode f.operand) ∧
    (∀ f ∈ cpyForms b w, exec f.instr = testReg compareFlags .y f.opcode f.operand) := by
  refine ⟨fun f hf => ?_, fun f hf => ?_, fun f hf => ?_, fun f hf => ?_⟩ <;> fin_cases hf <;> rfl

theorem testForms_encoded {b : Byte} {w : Word} {f : Form Source}
    (h : f ∈ bitForms b w ++ cmpForms b w ++ cpxForms b w ++ cpyForms b w) : f.Encoded f.operand.bytes := by
  fin_cases h <;> exact Form.encoded_of rfl (operandBytes_of_source rfl rfl) rfl

theorem OnlyRead.reg {s t : State} (h : OnlyRead s t) (r : Reg) : t.reg r = s.reg r := by
  cases r
  case a => exact h.a
  case x => exact h.x
  case y => exact h.y
  case sp => exact h.sp

/-- The operand is tested against the register of before its reads; only P takes the outcome. -/
theorem testReg_eq (test : Byte → Byte → Byte → Byte) (r : Reg) (f : Form Source) (s : State) :
    testReg test r f.opcode f.operand s = .next { (f.operand.load s).state with
      p := test (s.reg r) (f.operand.load s).value s.p, pc := f.after f.operand.bytes s, cycles := f.readCycles s } := by
  have read := load_onlyRead f.operand s
  rw [testReg, read.reg, read.p, retire_load f]
  · rfl
  · exact read.pc
  · exact read.cycles
  · exact read.config

theorem bitFlags_flags (a m p : Byte) :
    flagZ (bitFlags a m p) = decide (a &&& m = 0) ∧ flagN (bitFlags a m p) = m.getLsbD 7 ∧
      flagV (bitFlags a m p) = m.getLsbD 6 := by
  simp [bitFlags]

theorem compareFlags_flags (r m p : Byte) :
    flagC (compareFlags r m p) = decide (m.toNat ≤ r.toNat) ∧ flagZ (compareFlags r m p) = decide (r = m) ∧
      flagN (compareFlags r m p) = (r - m).getLsbD 7 := by
  simp [compareFlags]

/-- A compare, by the register that its row of the statement names. -/
theorem compareForms_exec {b : Byte} {w : Word} {s : State} {q : Byte × Form Source}
    (h : q ∈ (cmpForms b w).map (fun f => (s.a, f)) ++ (cpxForms b w).map (fun f => (s.x, f)) ++
      (cpyForms b w).map (fun f => (s.y, f))) :
    ∃ r, s.reg r = q.1 ∧ exec q.2.instr = testReg compareFlags r q.2.opcode q.2.operand := by
  obtain ⟨-, cmp, cpx, cpy⟩ := testForms_exec b w
  simp only [List.mem_append, List.mem_map] at h
  obtain (⟨f, hf, rfl⟩ | ⟨f, hf, rfl⟩) | ⟨f, hf, rfl⟩ := h
  · exact ⟨.a, rfl, cmp f hf⟩
  · exact ⟨.x, rfl, cpx f hf⟩
  · exact ⟨.y, rfl, cpy f hf⟩

/-- Settles O40: `testReg_eq` with the flags of BIT and of a compare. -/
theorem bitAndCompares : Obligations.BitAndCompares := by
  intro b w s
  refine ⟨fun f hf => ⟨testForms_encoded hf, load_readFrame _ s⟩, fun f hf => ?_, fun q hq => ?_⟩
  · intro m
    obtain ⟨zero, negative, overflow⟩ := bitFlags_flags s.a m s.p
    refine ⟨_, zero, negative, overflow, bitFlags_writes s.a m s.p, ?_⟩
    rw [(testForms_exec b w).1 f hf, testReg_eq]
    rfl
  · intro m
    obtain ⟨r, register, meaning⟩ := compareForms_exec hq
    obtain ⟨carry, zero, negative⟩ := compareFlags_flags q.1 m s.p
    refine ⟨_, carry, zero, negative, compareFlags_writes q.1 m s.p, ?_⟩
    rw [meaning, testReg_eq, register]

/-! ## Increments and decrements (R459 to R464) -/

theorem incDecForms_encoded {b : Byte} {w : Word} {f : Form MemOperand} (h : f ∈ incForms b w ++ decForms b w) :
    f.Encoded f.operand.bytes := by
  fin_cases h <;> exact Form.encoded_of rfl (operandBytes_of_mem rfl rfl) rfl

theorem incDecForms_storing {b : Byte} {w : Word} {f : Form MemOperand} (h : f ∈ incForms b w ++ decForms b w) :
    f ∈ storingForms b w := by
  simp only [storingForms, List.mem_append] at h ⊢
  tauto

theorem memRead_readFrame (a : Word) (s : State) : ReadFrame s (memRead a s).state :=
  ⟨memRead_onlyRead a s, (memRead_onlyRead a s).peek⟩

/-- A read-modify-write whose address is formed with no side effect makes one bus read and one bus write. -/
theorem modifyMem_eq (op : Byte → Byte → AluOut) {f : Form MemOperand} {s : State} (ea : (f.operand.ea s).state = s) :
    let m := memRead (f.operand.ea s).addr s
    let t := memWrite (f.operand.ea s).addr (op m.value s.p).result m.state
    modifyMem op f.opcode f.operand s =
      .next { t with p := (op m.value s.p).p, pc := f.after f.operand.bytes s, cycles := f.cycles t } := by
  intro m t
  have read : OnlyRead s m.state := memRead_onlyRead _ s
  have pc : t.pc = s.pc := (memWrite_onlyWritten _ _ _).pc.trans read.pc
  rw [modifyMem, ea, read.p, MemOperand.length_eq, retire_eq f]
  · rfl
  · exact pc

/-- INC adds 1 and DEC adds $FF, which is to subtract 1 modulo 256. -/
theorem incDecForms_exec {b : Byte} {w : Word} {q : Byte × Form MemOperand}
    (h : q ∈ (incForms b w).map (fun f => ((1 : Byte), f)) ++ (decForms b w).map (fun f => ((0xFF : Byte), f))) :
    q.2 ∈ storingForms b w ∧ ∃ op, exec q.2.instr = modifyMem op q.2.opcode q.2.operand ∧
      ∀ m p, op m p = { result := m + q.1, p := setNZ p (m + q.1) } := by
  obtain ⟨inc, dec, -⟩ := modifyForms_exec b w
  simp only [List.mem_append, List.mem_map] at h
  obtain ⟨f, hf, rfl⟩ | ⟨f, hf, rfl⟩ := h
  · exact ⟨incDecForms_storing (List.mem_append_left _ hf), incOp, inc f hf, fun _ _ => rfl⟩
  · refine ⟨incDecForms_storing (List.mem_append_right _ hf), decOp, dec f hf, fun m p => ?_⟩
    have subtracts : m - 1 = m + 0xFF := BitVec.sub_eq_add_neg m 1
    rw [decOp, subtracts]

/-- Settles O41: `modifyMem_eq` for INC and DEC; the register forms set N and Z from the register they change. -/
theorem incrementsAndDecrements : Obligations.IncrementsAndDecrements := by
  intro b w s
  refine ⟨fun f hf => ⟨incDecForms_encoded hf, ea_state (storingForms_direct (incDecForms_storing hf)) s⟩,
    fun q hq => ?memory, fun f hf => ?register⟩
  case memory =>
    intro a m t
    refine ⟨memRead_readFrame a s, setNZ s.p (m.value + q.1), setNZ_flags _ _, ?_⟩
    obtain ⟨storing, op, meaning, computes⟩ := incDecForms_exec hq
    rw [meaning, modifyMem_eq op (ea_state (storingForms_direct storing) s), computes]
  case register => fin_cases hf <;> exact ⟨Form.encoded_of rfl rfl rfl, _, setNZ_flags s.p _, rfl⟩

/-! ## Shifts and rotates (R465 to R468) -/

/-- An operation that gives the byte and the carry of `shift`, which is told the old carry, with N and Z from the byte. -/
def ShiftsBy (op : Byte → Byte → AluOut) (shift : Byte → Bool → Byte × Bool) : Prop :=
  ∀ m p, op m p = { result := (shift m (flagC p)).1, p := setNZ (setC p (shift m (flagC p)).2) (shift m (flagC p)).1 }

/-- What a shift or rotate does is what the table of the shifting forms says. -/
theorem shifts_compute :
    ShiftsBy aslOp (fun m _ => (m <<< 1, m.getLsbD 7)) ∧ ShiftsBy lsrOp (fun m _ => (m >>> 1, m.getLsbD 0)) ∧
    ShiftsBy rolOp (fun m c => ((m <<< 1) ||| (if c then 0x01 else 0), m.getLsbD 7)) ∧
    ShiftsBy rorOp (fun m c => ((if c then 0x80 else 0) ||| (m >>> 1), m.getLsbD 0)) := by
  refine ⟨fun m p => rfl, fun m p => rfl, fun m p => ?rol, fun m p => ?ror⟩
  case rol =>
    rw [rolOp, rolResult]
    cases flagC p <;> rfl
  case ror =>
    rw [rorOp, rorResult]
    cases flagC p <;> rfl

theorem shiftForms_exec {b : Byte} {w : Word} {q : Form MemOperand × (Byte → Bool → Byte × Bool)}
    (h : q ∈ shiftForms b w) :
    q.1 ∈ storingForms b w ∧ ∃ op, exec q.1.instr = modifyMem op q.1.opcode q.1.operand ∧ ShiftsBy op q.2 := by
  obtain ⟨-, -, asl, lsr, rol, ror⟩ := modifyForms_exec b w
  obtain ⟨aslShifts, lsrShifts, rolShifts, rorShifts⟩ := shifts_compute
  simp only [shiftForms, List.mem_append, List.mem_map] at h
  obtain ((⟨f, hf, rfl⟩ | ⟨f, hf, rfl⟩) | ⟨f, hf, rfl⟩) | ⟨f, hf, rfl⟩ := h
  · exact ⟨by simp [storingForms, hf], aslOp, asl f hf, aslShifts⟩
  · exact ⟨by simp [storingForms, hf], lsrOp, lsr f hf, lsrShifts⟩
  · exact ⟨by simp [storingForms, hf], rolOp, rol f hf, rolShifts⟩
  · exact ⟨by simp [storingForms, hf], rorOp, ror f hf, rorShifts⟩

theorem shiftForms_encoded {b : Byte} {w : Word} {q : Form MemOperand × (Byte → Bool → Byte × Bool)}
    (h : q ∈ shiftForms b w) : q.1.Encoded q.1.operand.bytes := by
  fin_cases h <;> exact Form.encoded_of rfl (operandBytes_of_mem rfl rfl) rfl

/-- A shift of A leaves the byte of `shift` in A and its carry in C. -/
theorem shiftA_eq {op : Byte → Byte → AluOut} {shift : Byte → Bool → Byte × Bool} (shifts : ShiftsBy op shift)
    (f : Form (Byte × Bool)) (s : State) (operand : shift s.a (flagC s.p) = f.operand) :
    ∃ p, FlagsFromShift s.p p f.operand.1 f.operand.2 ∧
      modifyReg op .a f.opcode s = .next { s with a := f.operand.1, p := p, pc := s.pc + 1, cycles := f.cycles s } := by
  have out := shifts s.a s.p
  rw [operand] at out
  refine ⟨(op s.a s.p).p, ?_, ?_⟩
  · rw [out]
    exact shift_flags s.p _ _
  · rw [modifyReg, State.reg, out]
    rfl

/-- Settles O42: `modifyMem_eq` on memory and `shiftA_eq` on A, with the operations of `shifts_compute`. -/
theorem shiftsAndRotates : Obligations.ShiftsAndRotates := by
  intro b w s
  refine ⟨fun q hq => ?memory, fun f hf => ?accumulator⟩
  case memory =>
    intro a m r t
    obtain ⟨storing, op, meaning, computes⟩ := shiftForms_exec hq
    have ea := ea_state (storingForms_direct storing) s
    refine ⟨shiftForms_encoded hq, ea, memRead_readFrame a s, setNZ (setC s.p r.2) r.1, shift_flags s.p r.1 r.2, ?_⟩
    rw [meaning, modifyMem_eq op ea, computes]
    rfl
  case accumulator =>
    obtain ⟨asl, lsr, rol, ror⟩ := shifts_compute
    fin_cases hf
    · exact ⟨Form.encoded_of rfl rfl rfl, shiftA_eq asl _ s rfl⟩
    · exact ⟨Form.encoded_of rfl rfl rfl, shiftA_eq lsr _ s rfl⟩
    · exact ⟨Form.encoded_of rfl rfl rfl, shiftA_eq rol _ s rfl⟩
    · exact ⟨Form.encoded_of rfl rfl rfl, shiftA_eq ror _ s rfl⟩

end Sys2Proof.Machine

/-! # Proofs: jumps, subroutines, exceptions and flag instructions (42_control_flags_misc R509 to R521)

The statements name bytes and words by arithmetic on naturals, the model by their halves: the layers below say once that
these agree, then what a pushed or pulled word, an exception and a return from one do in the words of the statements. -/

namespace Sys2Proof.Machine

/-! ## The halves of a word, as numbers -/

theorem mkWord_eq_ofNat (h l : Byte) : mkWord h l = BitVec.ofNat 16 (h.toNat * 256 + l.toNat) := by
  rw [← mkWord_toNat, BitVec.ofNat_toNat, BitVec.setWidth_eq]

theorem hi_eq_ofNat (w : Word) : hi w = BitVec.ofNat 8 (w.toNat / 256) := by
  rw [← hi_toNat, BitVec.ofNat_toNat, BitVec.setWidth_eq]

theorem lo_eq_ofNat (w : Word) : lo w = BitVec.ofNat 8 w.toNat := by
  apply BitVec.eq_of_toNat_eq
  rw [lo_toNat, BitVec.toNat_ofNat]

/-! ## Words on the stack (00_scope R12) -/

/-- RAM after a word is pushed, high byte first. -/
def wordStack (s : State) (w : Word) : Memory :=
  (s.ram.write (0x100 + s.sp.toNat) (BitVec.ofNat 8 (w.toNat / 256))).write
    (0x100 + (s.sp - 1).toNat) (BitVec.ofNat 8 w.toNat)

theorem pushWord_wordStack (w : Word) (s : State) :
    pushWord w s = { s with ram := wordStack s w, sp := s.sp - 2 } := by
  have two : s.sp - 1 - 1 = s.sp - 2 := sub_sub s.sp 1 1
  rw [pushWord_eq, hi_eq_ofNat, lo_eq_ofNat, two]
  rfl

theorem wordStack_read_other {s : State} {w : Word} {k : Nat} (high : k ≠ 0x100 + s.sp.toNat)
    (low : k ≠ 0x100 + (s.sp - 1).toNat) : (wordStack s w).read k = s.ram.read k :=
  (Memory.read_write_other _ _ _ _ low).trans (Memory.read_write_other _ _ _ _ high)

theorem wordStack_read_high {s : State} (canonical : s.ram.wf = true) (w : Word) :
    ((wordStack s w).read (0x100 + s.sp.toNat)).toNat = w.toNat / 256 := by
  have apart : 0x100 + s.sp.toNat ≠ 0x100 + (s.sp - 1).toNat := by bv_omega
  rw [wordStack, Memory.read_write_other _ _ _ _ apart, Memory.read_write canonical, if_pos rfl, ← hi_eq_ofNat, hi_toNat]

theorem wordStack_read_low {s : State} (canonical : s.ram.wf = true) (w : Word) :
    ((wordStack s w).read (0x100 + (s.sp - 1).toNat)).toNat = w.toNat % 256 := by
  rw [wordStack, Memory.read_write (Memory.write_wf _ _ canonical), if_pos rfl, BitVec.toNat_ofNat]

theorem pullWord_ofNat (s : State) :
    pullWord s =
      { value := BitVec.ofNat 16 ((s.ram.read (0x100 + (s.sp + 2).toNat)).toNat * 256 +
          (s.ram.read (0x100 + (s.sp + 1).toNat)).toNat),
        state := { s with sp := s.sp + 2 } } := by
  have two : s.sp + 1 + 1 = s.sp + 2 := add_assoc s.sp 1 1
  rw [pullWord_eq, mkWord_eq_ofNat, two]
  rfl

/-! ## Jumps and subroutines (R509 to R511) -/

theorem readPair_eq_ofNat (l h : Word) (s : State) :
    readPair l h s =
      { value := BitVec.ofNat 16 ((memRead h (memRead l s).state).value.toNat * 256 + (memRead l s).value.toNat),
        state := (memRead h (memRead l s).state).state } := by
  rw [← mkWord_eq_ofNat]
  rfl

/-- The end of a jump, after accesses that keep the cycle count and the parameters. -/
theorem retireTo_eq {ω : Type} (f : Form ω) (target : Word) {s t : State} (cycles : t.cycles = s.cycles)
    (config : t.config = s.config) :
    retireTo f.opcode target t = { t with pc := target, cycles := f.cycles s } := by
  rw [Form.cycles, ← cycles, ← config]
  rfl

/-- Settles O44: JMP ends at the word of its pointer's two reads (`jumpPointer_reads`), JSR after `pushWord` and RTS after
`pullWord`. -/
theorem jumpsAndSubroutines : Obligations.JumpsAndSubroutines := by
  intro w s
  refine ⟨⟨Form.encoded_of rfl rfl rfl, rfl⟩, ?jmpInd, ?jsr, ?rts⟩
  case jmpInd =>
    intro f l h
    have read : OnlyRead s h.state := readPair_onlyRead _ _ s
    refine ⟨Form.encoded_of rfl rfl rfl, ⟨read, read.peek⟩, ?_⟩
    change execJmpInd w s = _
    rw [execJmpInd, MemOperand.ea, jumpPointer_reads, readPair_eq_ofNat]
    exact congrArg Host.Outcome.next (retireTo_eq f _ read.cycles read.config)
  case jsr =>
    intro f
    have jumps : exec f.instr s = .next { s with
        ram := wordStack s (s.pc + 2), sp := s.sp - 2, pc := w, cycles := f.cycles s } := by
      change execJsr w s = _
      rw [execJsr, pushWord_wordStack]
      rfl
    refine ⟨Form.encoded_of rfl rfl rfl, jumps, fun t next => ?_⟩
    obtain rfl := Host.Outcome.next.inj (jumps.symm.trans next)
    exact ⟨fun _ => wordStack_read_other, fun canonical =>
      ⟨wordStack_read_high canonical _, wordStack_read_low canonical _⟩⟩
  case rts =>
    intro f l h
    have target : BitVec.ofNat 16 (h.toNat * 256 + l.toNat + 1) = BitVec.ofNat 16 (h.toNat * 256 + l.toNat) + 1 :=
      BitVec.ofNat_add _ 1
    refine ⟨Form.encoded_of rfl rfl rfl, ?_⟩
    change execRts s = _
    rw [execRts, pullWord_ofNat, target]
    rfl

/-! ## Exceptions (R512, R513) -/

theorem exceptionRam_eq (s : State) (ret : Word) (status : Byte) :
    exceptionRam s ret status = exceptionStack s ret status := by
  have two : s.sp - 1 - 1 = s.sp - 2 := sub_sub s.sp 1 1
  rw [exceptionRam, hi_eq_ofNat, lo_eq_ofNat, two]
  rfl

/-- A vector lies in the last PRG window, both of its bytes. -/
theorem vectorWord_eq {v : Word} (window : 0xE000 ≤ v.toNat) (last : v.toNat < 0xFFFF) (s : State) :
    vectorWord s v = vectorAt s v.toNat := by
  have next : (v + 1).toNat = v.toNat + 1 := by bv_omega
  have low : s.map.prgWindow v = s.map.prg.get 3 := prgWindow_eq s.map (show v.toNat / 0x2000 = 7 by omega)
  have high : s.map.prgWindow (v + 1) = s.map.prg.get 3 :=
    prgWindow_eq s.map (show (v + 1).toNat / 0x2000 = 7 by omega)
  rw [vectorWord, mkWord_eq_ofNat, low, high, next]
  rfl

theorem setI_true (p : Byte) : setI p true = p ||| 0x04 := by
  apply BitVec.eq_of_getLsbD_eq
  intro i hi
  rw [setI, setBit_getLsbD p true 2 i (by decide) hi, BitVec.getLsbD_or]
  interval_cases i <;> simp

/-- Taking an exception through a vector of the last PRG window (60_exceptions R916). -/
theorem takeException_eq_exceptionStack (ret : Word) (status : Byte) {v : Word} (window : 0xE000 ≤ v.toNat)
    (last : v.toNat < 0xFFFF) (s : State) :
    takeException ret status v s = { s with
      ram := exceptionStack s ret status, sp := s.sp - 3, p := s.p ||| 0x04, pc := vectorAt s v.toNat } := by
  have three : s.sp - 1 - 1 - 1 = s.sp - 3 := by rw [sub_sub, sub_sub]; rfl
  rw [takeException_eq ret status v s (by omega) last, exceptionRam_eq, vectorWord_eq window last, setI_true, three]
  rfl

theorem returnFromException_eq_ofNat (s : State) :
    returnFromException s = { s with
      p := restoredP (s.ram.read (0x100 + (s.sp + 1).toNat)), sp := s.sp + 3,
      pc := BitVec.ofNat 16 ((s.ram.read (0x100 + (s.sp + 3).toNat)).toNat * 256 +
        (s.ram.read (0x100 + (s.sp + 2).toNat)).toNat) } := by
  have two : s.sp + 1 + 1 = s.sp + 2 := add_assoc s.sp 1 1
  have three : s.sp + 2 + 1 = s.sp + 3 := add_assoc s.sp 2 1
  rw [returnFromException_eq, mkWord_eq_ofNat, two, three]
  rfl

/-- Settles O45: BRK is `takeException` through the vector of IRQ, and RTI is `returnFromException`. -/
theorem breakAndReturnFromInterrupt : Obligations.BreakAndReturnFromInterrupt := by
  intro s
  refine ⟨⟨Form.encoded_of rfl rfl rfl, ?brk⟩, ⟨Form.encoded_of rfl rfl rfl, ?rti⟩⟩
  case brk =>
    change execBrk s = _
    rw [execBrk, takeException_eq_exceptionStack _ _ (by decide) (by decide)]
    rfl
  case rti =>
    change execRti s = _
    rw [execRti, returnFromException_eq_ofNat]
    rfl

/-! ## Flag instructions (R514 to R521) -/

/-- Settles O46: a flag instruction is `changeP` of its bit, which `setBit_getLsbD` reads back; NOP leaves P as it is. -/
theorem flagInstructionsAndNop : Obligations.FlagInstructionsAndNop := by
  intro s
  simp only [List.forall_mem_cons]
  refine ⟨?clc, ?cld, ?cli, ?clv, ?sec, ?sed, ?sei, ?nop, nofun⟩
  case nop => exact ⟨Form.encoded_of rfl rfl rfl, s.p, fun _ _ => rfl, rfl⟩
  case clc | cld | cli | clv | sec | sed | sei =>
    exact ⟨Form.encoded_of rfl rfl rfl, setBit s.p _ _, fun i hi => setBit_getLsbD s.p _ _ i (by decide) hi, rfl⟩

end Sys2Proof.Machine

/-! # Proofs: PPU registers (50_ppu R600 to R610)

Bit-field writes and concatenations are said once by bit and by number. A register write or read is then an equation of its
definition and these bits; the toggle and OAM DMA are inductions over the accesses and over the bytes copied. -/

namespace Sys2Proof.Machine

/-! ## Fields of a bit vector -/

theorem setField_getLsbD {n w : Nat} (v : BitVec n) (k : Nat) (f : BitVec w) {i : Nat} (h : i < n) :
    (setField v k f).getLsbD i = if k ≤ i ∧ i < k + w then f.getLsbD (i - k) else v.getLsbD i := by
  have inside : i - k < n := by omega
  simp only [setField, fieldMask, BitVec.getLsbD_or, BitVec.getLsbD_and, BitVec.getLsbD_not, BitVec.getLsbD_shiftLeft,
    BitVec.getLsbD_setWidth, BitVec.getLsbD_allOnes, h, inside, decide_true, Bool.true_and]
  by_cases below : i < k
  · simp [below, Nat.not_le.mpr below]
  · by_cases above : i < k + w
    · have field : i - k < w := by omega
      simp [below, above, field, Nat.not_lt.mp below]
    · have outside : w ≤ i - k := by omega
      simp [below, above, BitVec.getLsbD_of_ge f _ outside, Nat.not_lt.mpr outside]

theorem extractLsb'_toNat {n : Nat} (v : BitVec n) (k w : Nat) : (v.extractLsb' k w).toNat = v.toNat / 2 ^ k % 2 ^ w := by
  rw [BitVec.extractLsb'_toNat, Nat.shiftRight_eq_div_pow]

theorem extractLsb'_zero_toNat {n : Nat} (v : BitVec n) (w : Nat) : (v.extractLsb' 0 w).toNat = v.toNat % 2 ^ w := by
  rw [extractLsb'_toNat, Nat.pow_zero, Nat.div_one]

/-- Storing what a field holds changes nothing. -/
theorem setField_extractLsb' {n : Nat} (v : BitVec n) (k w : Nat) : setField v k (v.extractLsb' k w) = v := by
  apply BitVec.eq_of_getLsbD_eq
  intro i h
  rw [setField_getLsbD v k _ h]
  split
  case isTrue inside =>
    obtain ⟨low, high⟩ := inside
    have bit : i - k < w := by omega
    simp [bit, Nat.add_sub_cancel' low]
  case isFalse => rfl

theorem setField_toNat_base {n w : Nat} (v : BitVec n) {k : Nat} (f : BitVec w) (h : k + w ≤ n) :
    (setField v k f).toNat = (v &&& ~~~fieldMask n k w).toNat + f.toNat * 2 ^ k := by
  have apart : (v &&& ~~~fieldMask n k w) &&& (f.setWidth n <<< k) = 0#n := by
    apply BitVec.eq_of_getLsbD_eq
    intro i hi
    by_cases field : i - k < w
    · simp [fieldMask, hi, field]
      omega
    · simp [hi, BitVec.getLsbD_of_ge f _ (Nat.not_lt.mp field)]
  have fits : f.toNat * 2 ^ k < 2 ^ n :=
    calc f.toNat * 2 ^ k < 2 ^ w * 2 ^ k := Nat.mul_lt_mul_of_pos_right f.isLt (Nat.two_pow_pos k)
      _ = 2 ^ (k + w) := by rw [Nat.mul_comm, ← Nat.pow_add]
      _ ≤ 2 ^ n := Nat.pow_le_pow_right (by decide) h
  have narrow : f.toNat < 2 ^ n := Nat.lt_of_lt_of_le f.isLt (Nat.pow_le_pow_right (by decide) (by omega))
  rw [setField, ← BitVec.add_eq_or_of_and_eq_zero _ _ apart, BitVec.toNat_add_of_and_eq_zero apart,
    BitVec.toNat_shiftLeft, BitVec.toNat_setWidth, Nat.mod_eq_of_lt narrow, Nat.shiftLeft_eq, Nat.mod_eq_of_lt fits]

/-- A field write trades the field's old value for the new one. -/
theorem setField_toNat {n w : Nat} (v : BitVec n) {k : Nat} (f : BitVec w) (h : k + w ≤ n) :
    (setField v k f).toNat + v.toNat / 2 ^ k % 2 ^ w * 2 ^ k = v.toNat + f.toNat * 2 ^ k := by
  have before := setField_toNat_base v (v.extractLsb' k w) h
  rw [setField_extractLsb', extractLsb'_toNat] at before
  rw [setField_toNat_base v f h]
  omega

/-- Counting a field up by one, where it does not wrap. -/
theorem setField_next_toNat {n : Nat} (v : BitVec n) {k w : Nat} (fits : k + w ≤ n)
    (h : v.toNat / 2 ^ k % 2 ^ w + 1 < 2 ^ w) : (setField v k (v.extractLsb' k w + 1)).toNat = v.toNat + 2 ^ k := by
  have one : (1 : BitVec w).toNat = 1 := (BitVec.toNat_ofNat 1 w).trans (Nat.mod_eq_of_lt (by omega))
  have next : (v.extractLsb' k w + 1).toNat = v.toNat / 2 ^ k % 2 ^ w + 1 := by
    rw [BitVec.toNat_add, extractLsb'_toNat, one, Nat.mod_eq_of_lt h]
  have stored := setField_toNat v (v.extractLsb' k w + 1) fits
  rw [next, Nat.succ_mul] at stored
  omega

theorem append_toNat {n m : Nat} (x : BitVec n) (y : BitVec m) : (x ++ y).toNat = x.toNat * 2 ^ m + y.toNat := by
  rw [BitVec.toNat_append, ← Nat.shiftLeft_add_eq_or_of_lt y.isLt, Nat.shiftLeft_eq]

/-! ## Register writes and reads (R601 to R605, R607, R608, R610) -/

/-- Settles O14: each write is its definition, and each new `t` is `t` with fields of d in it. -/
theorem ppuRegisterWrites : Obligations.PpuRegisterWrites := by
  intro s d
  refine ⟨⟨_, fun i hi => ?ctrl, rfl⟩, rfl, rfl, rfl,
    fun w => ⟨_, d.extractLsb' 0 3, fun i hi => ?scrollX, extractLsb'_zero_toNat d 3, if_neg (by simp [w])⟩,
    fun w => ⟨_, fun i hi => ?scrollY, if_pos w⟩, fun w => ⟨_, fun i hi => ?addrHigh, if_neg (by simp [w])⟩,
    fun w => ⟨_, fun i hi => ?addrLow, if_pos w⟩⟩
  case ctrl | scrollX | addrLow =>
    rw [setField_getLsbD _ _ _ hi]
    interval_cases i <;> simp
  case scrollY | addrHigh =>
    rw [setField_getLsbD _ _ _ hi, setField_getLsbD _ _ _ hi]
    interval_cases i <;> simp

theorem statusRead_value_getLsbD (s : State) {i : Nat} (h : i < 8) :
    (statusRead s).value.getLsbD i = if i = 7 then s.ppu.vblank else (Config.draw s.draws).getLsbD i := by
  change (BitVec.ofBool s.ppu.vblank ++ s.drawn.extractLsb' 0 7).getLsbD i = _
  rw [BitVec.getLsbD_append]
  by_cases flag : i = 7
  · simp [flag]
  · have low : i < 7 := by omega
    simp [State.drawn, flag, low]

/-- Settles O15: each read is its definition. -/
theorem ppuRegisterReads : Obligations.PpuRegisterReads := by
  intro s
  refine ⟨statusRead_value_getLsbD s (by decide), fun i hi => ?_, rfl, ?_, fun _ => rfl⟩
  · exact (statusRead_value_getLsbD s (by omega)).trans (if_neg (by omega))
  · simp only [List.forall_mem_cons]
    exact ⟨rfl, rfl, rfl, rfl, rfl, nofun⟩

theorem busAddr_toNat (p : Ppu) : p.busAddr.toNat = p.v.toNat % 0x4000 :=
  extractLsb'_zero_toNat p.v 14

theorem vAfterAccess_toNat (p : Ppu) :
    p.vAfterAccess.toNat = (p.v.toNat + (if p.ctrl.getLsbD 2 then 32 else 1)) % 0x8000 := by
  rw [Ppu.vAfterAccess, BitVec.toNat_add]
  split <;> rfl

theorem dataRead_buffered {s : State} (h : s.ppu.busAddr.toNat < 0x3F00) :
    dataRead s =
      { value := s.ppu.readBuffer,
        state := s.setPpu { s.ppu with readBuffer := vRead s s.ppu.busAddr, v := s.ppu.vAfterAccess } } :=
  if_pos h

theorem dataRead_palette {s : State} (h : 0x3F00 ≤ s.ppu.busAddr.toNat) :
    dataRead s =
      { value := s.drawn.extractLsb' 6 2 ++ (vRead s s.ppu.busAddr).extractLsb' 0 6,
        state := s.afterDraw.setPpu
          { s.ppu with readBuffer := vRead s (s.ppu.busAddr - 0x1000), v := s.ppu.vAfterAccess } } :=
  if_neg (Nat.not_lt.mpr h)

/-- A palette read: six bits of the cell under two bits of a draw (R607). -/
theorem dataRead_palette_getLsbD {s : State} (h : 0x3F00 ≤ s.ppu.busAddr.toNat) {i : Nat} (hi : i < 8) :
    (dataRead s).value.getLsbD i =
      if i < 6 then (vRead s s.ppu.busAddr).getLsbD i else (Config.draw s.draws).getLsbD i := by
  rw [dataRead_palette h, BitVec.getLsbD_append]
  by_cases cell : i < 6
  · simp [cell]
  · have draw : i - 6 < 2 := by omega
    have bit : 6 + (i - 6) = i := by omega
    simp [State.drawn, cell, draw, bit]

/-- Settles O16: the two branches of a PPUDATA read, at the bus address of v, and the write. -/
theorem ppuDataPorts : Obligations.PpuDataPorts := by
  intro s d
  refine ⟨rfl, rfl, s.ppu.busAddr, s.ppu.vAfterAccess, busAddr_toNat s.ppu, vAfterAccess_toNat s.ppu,
    dataRead_buffered, fun palette => ⟨fun i hi => ?_, fun i low high => ?_,
      congrArg ReadOut.state (dataRead_palette palette)⟩, rfl⟩
  · exact (dataRead_palette_getLsbD palette (by omega)).trans (if_pos hi)
  · exact (dataRead_palette_getLsbD palette high).trans (if_neg (by omega))

/-! ## OAM DMA (R606) -/

/-- The address of byte i of a page. -/
theorem mkWord_ofNat (d : Byte) {i : Nat} (h : i < 256) :
    mkWord d (BitVec.ofNat 8 i) = BitVec.ofNat 16 (d.toNat * 256 + i) := by
  rw [mkWord_eq_ofNat, BitVec.toNat_ofNat, Nat.mod_eq_of_lt h]

/-- One byte of a DMA from memory: a store in OAM and nothing else. -/
theorem dmaByte_of_peek {s : State} {d b : Byte} {i : Nat} (h : i < 256)
    (byte : peek s (BitVec.ofNat 16 (d.toNat * 256 + i)) = some b) :
    dmaByte d i s = s.setOam (s.oam.write ((s.ppu.oamAddr.toNat + i) % 256) b) := by
  rw [dmaByte, mkWord_ofNat d h, memRead_of_peek byte]

/-- What OAM holds after the last n bytes of a page, `g`, were copied to it from the OAM address on, modulo 256. -/
structure CopiedTail (start : Byte) (g : Nat → Byte) (n : Nat) (before after : Memory) : Prop where
  wf : after.wf = true
  copied : ∀ i < 256, 256 - n ≤ i → after.read ((start.toNat + i) % 256) = g i
  kept : ∀ i < 256 - n, after.read ((start.toNat + i) % 256) = before.read ((start.toNat + i) % 256)
  other : ∀ k, 256 ≤ k → after.read k = before.read k

/-- Copying byte 256 - (n + 1) and then the last n bytes is copying the last n + 1. -/
theorem CopiedTail.step {start : Byte} {g : Nat → Byte} {n : Nat} {m o : Memory} (wf : m.wf = true) (h : n + 1 ≤ 256)
    (tail : CopiedTail start g n (m.write ((start.toNat + (256 - (n + 1))) % 256) (g (256 - (n + 1)))) o) :
    CopiedTail start g (n + 1) m o where
  wf := tail.wf
  copied := fun i hi low => by
    by_cases first : i = 256 - (n + 1)
    · rw [tail.kept i (by omega), first, Memory.read_write wf, if_pos rfl]
    · exact tail.copied i hi (by omega)
  kept := fun i hi => by
    rw [tail.kept i (by omega), Memory.read_write_other _ _ _ _ (by omega)]
  other := fun k hk => by
    rw [tail.other k hk, Memory.read_write_other _ _ _ _ (by omega)]

theorem dmaFrom_copies {d : Byte} {g : Nat → Byte} {n : Nat} (h : n ≤ 256) {s : State} (wf : s.oam.wf = true)
    (page : ∀ i < 256, peek s (BitVec.ofNat 16 (d.toNat * 256 + i)) = some (g i)) :
    ∃ o, CopiedTail s.ppu.oamAddr g n s.oam o ∧ dmaFrom d n s = s.setOam o := by
  induction n generalizing s with
  | zero => exact ⟨s.oam, ⟨wf, fun i hi low => by omega, fun _ _ => rfl, fun _ _ => rfl⟩, rfl⟩
  | succ n ih =>
    have byte := dmaByte_of_peek (by omega : 256 - (n + 1) < 256) (page _ (by omega))
    obtain ⟨o, tail, copied⟩ := ih (by omega) (s := dmaByte d (256 - (n + 1)) s)
      (by rw [byte]; exact Memory.write_wf _ _ wf) (by rw [byte]; exact page)
    rw [byte] at tail copied
    refine ⟨o, tail.step wf h, ?_⟩
    rw [dmaFrom, byte, copied]
    rfl

/-- A write to $4014 is 256 copies and the cycles of the DMA. -/
theorem memWrite_oamDma (d : Byte) (s : State) :
    memWrite 0x4014 d s =
      (dmaFrom d 256 s).setCycles ((dmaFrom d 256 s).cycles + (dmaFrom d 256 s).config.oamDmaCycles) := by
  have region : cpuRegion s.config 0x4014 = .oamDma := cpuRegion_oamDma _ (by decide)
  simp only [memWrite, region, oamDma]

/-- Settles O17: a write to $4014 is `dmaFrom` of 256 bytes. -/
theorem oamDmaCopiesThePage : Obligations.OamDmaCopiesThePage := by
  intro s d g wf page
  obtain ⟨o, tail, copied⟩ := dmaFrom_copies (n := 256) le_rfl wf page
  refine ⟨o, tail.wf, fun i hi => tail.copied i hi (by omega), tail.other, ?_⟩
  rw [memWrite_oamDma, copied]
  rfl

/-! ## The write toggle (R609) -/

theorem scrollWrite_w (d : Byte) (s : State) : (scrollWrite d s).ppu.w = !s.ppu.w := by
  rw [scrollWrite]
  cases s.ppu.w <;> rfl

theorem addrWrite_w (d : Byte) (s : State) : (addrWrite d s).ppu.w = !s.ppu.w := by
  rw [addrWrite]
  cases s.ppu.w <;> rfl

theorem dataRead_w (s : State) : (dataRead s).state.ppu.w = s.ppu.w := by
  by_cases low : s.ppu.busAddr.toNat < 0x3F00
  · rw [dataRead_buffered low]
    rfl
  · rw [dataRead_palette (Nat.not_lt.mp low)]
    rfl

/-- The toggle after one access. -/
theorem run_w (x : RegAccess) (s : State) :
    (x.run s).ppu.w = if x.isStatusRead then false else s.ppu.w ^^ x.isToggleWrite := by
  cases x with
  | read r =>
    cases r
    case data => exact (dataRead_w s).trans (Bool.xor_false _).symm
    case status => rfl
    all_goals exact (Bool.xor_false _).symm
  | write r d =>
    cases r
    case scroll => exact (scrollWrite_w d s).trans (Bool.xor_true _).symm
    case addr => exact (addrWrite_w d s).trans (Bool.xor_true _).symm
    all_goals exact (Bool.xor_false _).symm

theorem toggleWrites_append (l : List RegAccess) (x : RegAccess) :
    toggleWrites (l ++ [x]) = if x.isStatusRead then 0 else toggleWrites l + if x.isToggleWrite then 1 else 0 := by
  rw [toggleWrites, List.reverse_append]
  cases status : x.isStatusRead
  · cases toggle : x.isToggleWrite <;> simp [status, toggle, toggleWrites]
  · simp [status]

theorem runAccesses_append (l : List RegAccess) (x : RegAccess) (s : State) :
    runAccesses (l ++ [x]) s = x.run (runAccesses l s) := by
  simp [runAccesses]

/-- The toggle after any accesses: the parity of the writes since the last status read, added to the toggle before where
there was no such read. -/
theorem runAccesses_w (l : List RegAccess) (s : State) :
    (runAccesses l s).ppu.w = ((!l.any RegAccess.isStatusRead && s.ppu.w) ^^ decide (toggleWrites l % 2 = 1)) := by
  induction l using List.reverseRecOn with
  | nil => exact (Bool.xor_false _).symm
  | append_singleton l x ih =>
    rw [runAccesses_append, run_w, ih, toggleWrites_append, List.any_append]
    cases status : x.isStatusRead
    · cases toggle : x.isToggleWrite
      · simp [status]
      · have flips : decide ((toggleWrites l + 1) % 2 = 1) = !decide (toggleWrites l % 2 = 1) := by
          rw [← decide_not, decide_eq_decide]
          omega
        simp [status, flips]
    · simp [status]

theorem cpuRegion_eq_ppu {c : Config} {a : Word} (h : cpuRegion c a = .ppu) :
    0x2000 ≤ a.toNat ∧ a.toNat ≤ c.ppuRegWindowEnd.toNat := by
  unfold cpuRegion at h
  split_ifs at h with ram window
  exact ⟨Nat.not_lt.mp ram, window.1⟩

/-- Outside the PPU's registers a CPU read leaves the PPU alone (20_memory R151). -/
theorem memRead_ppu {a : Word} {s : State} (h : a.toNat < 0x2000 ∨ s.config.ppuRegWindowEnd.toNat < a.toNat) :
    (memRead a s).state.ppu = s.ppu := by
  rw [memRead]
  cases region : cpuRegion s.config a
  case ppu =>
    have window := cpuRegion_eq_ppu region
    omega
  all_goals rfl

theorem dmaFrom_ppu {d : Byte} {n : Nat} (le : n ≤ 256) {s : State}
    (outside : d.toNat < 0x20 ∨ s.config.ppuRegWindowEnd.toNat < d.toNat * 256) : (dmaFrom d n s).ppu = s.ppu := by
  induction n generalizing s with
  | zero => rfl
  | succ n ih =>
    have byte : (dmaByte d (256 - (n + 1)) s).ppu = s.ppu := by
      refine memRead_ppu ?_
      rw [mkWord_toNat, BitVec.toNat_ofNat]
      omega
    have config : (dmaByte d (256 - (n + 1)) s).config = s.config := (dmaByte_onlyWritten d _ s).config
    exact (ih (by omega) (config ▸ outside)).trans byte

/-- Settles O18: the accesses are an induction over the list, and neither a tick nor such a DMA writes the toggle. -/
theorem toggleFollowsItsWrites : Obligations.ToggleFollowsItsWrites := by
  refine ⟨fun l s => ?accesses, rfl, fun n s => (tick_onlyDrawn n s).wReg, fun d s outside => ?dma⟩
  case accesses =>
    rw [runAccesses_w]
    cases l.any RegAccess.isStatusRead <;> simp
  case dma => rw [memWrite_oamDma, State.setCycles_ppu, dmaFrom_ppu le_rfl outside]

end Sys2Proof.Machine

/-! # Proofs: the dot clock (50_ppu R620 to R641)

A dot is its actions and the advance of the counters (`dot_eq`). The raster's place in the frame is one number, which a
dot moves by one (`dot_place`), and the place decides what a dot does to the flag and the host's side; so the timeline of
R641 is an induction over the dots. Addresses and shift registers are said by number or by bit, as their rules do. -/

namespace Sys2Proof.Machine

/-! ## The raster (R621) -/

theorem dot_eq (s : State) : dot s =
    { dotActions s.ppu.line s.ppu.dot s with
      ppu := { (dotActions s.ppu.line s.ppu.dot s).ppu with
        line := if s.ppu.dot + 1 = s.config.dotsPerLine then (s.ppu.line + 1) % s.config.linesPerFrame else s.ppu.line,
        dot := if s.ppu.dot + 1 = s.config.dotsPerLine then 0 else s.ppu.dot + 1 } } := by
  have config : (dotActions s.ppu.line s.ppu.dot s).config = s.config := (dotActions_onlyDrawn _ _ s).stepFrame.config
  obtain ⟨line, dot⟩ := dotActions_raster s.ppu.line s.ppu.dot s
  rw [Machine.dot, Ppu.advanced, config, line, dot]
  split
  · rfl
  · simp only [State.setPpu]

/-- The place of the raster in the frame, in dots from (0, 0). -/
def State.place (s : State) : Nat := s.ppu.line * s.config.dotsPerLine + s.ppu.dot

theorem tick_config (n : Nat) (s : State) : (tick n s).config = s.config := (tick_onlyDrawn n s).stepFrame.config

/-- One place on, where a line is `w` dots and a frame `h` lines. -/
theorem next_place {w h l d : Nat} (line : l < h) (dot : d < w) :
    (if d + 1 = w then (l + 1) % h else l) * w + (if d + 1 = w then 0 else d + 1) = (l * w + d + 1) % (w * h) := by
  have frame : (l + 1) * w ≤ w * h := by rw [Nat.mul_comm w h]; exact Nat.mul_le_mul_right w line
  rw [Nat.add_mul, Nat.one_mul] at frame
  split
  case isTrue last =>
    have next : l * w + d + 1 = w * (l + 1) := by rw [Nat.mul_comm w, Nat.add_mul, Nat.one_mul]; omega
    rw [next, Nat.mul_mod_mul_left, Nat.add_zero, Nat.mul_comm]
  case isFalse => rw [Nat.mod_eq_of_lt (by omega)]; omega

theorem dot_place {s : State} (h : s.RasterInRange) :
    (dot s).place = (s.place + 1) % (s.config.dotsPerLine * s.config.linesPerFrame) := by
  obtain ⟨-, line, dot⟩ := h
  have config : (Machine.dot s).config = s.config := tick_config 1 s
  rw [State.place, config, dot_eq]
  exact next_place line dot

theorem tick_inRange (n : Nat) {s : State} (h : s.RasterInRange) : (tick n s).RasterInRange := by
  induction n with
  | zero => exact h
  | succ n ih => rw [tick_succ]; exact dot_rasterInRange ih

theorem place_lt {s : State} (h : s.RasterInRange) : s.place < s.config.dotsPerLine * s.config.linesPerFrame := by
  obtain ⟨-, line, dot⟩ := h
  have frame := Nat.mul_le_mul_right s.config.dotsPerLine line
  rw [Nat.succ_mul, Nat.mul_comm s.config.linesPerFrame] at frame
  rw [State.place]
  omega

theorem tick_place (n : Nat) {s : State} (h : s.RasterInRange) :
    (tick n s).place = (s.place + n) % (s.config.dotsPerLine * s.config.linesPerFrame) := by
  induction n with
  | zero => exact (Nat.mod_eq_of_lt (place_lt h)).symm
  | succ n ih => rw [tick_succ, dot_place (tick_inRange n h), ih, tick_config, Nat.mod_add_mod, Nat.add_assoc]

/-- Settles O19: a dot by `dot_eq`, and n of them by `tick_place`. -/
theorem tickMovesTheRaster : Obligations.TickMovesTheRaster := by
  refine ⟨fun s n => ⟨rfl, tick_succ n s⟩, fun s => ⟨_, _, ?_, dot_eq s⟩,
    fun s n h => ⟨tick_inRange n h, ?_⟩⟩
  · split <;> rfl
  · have place := tick_place n h
    rwa [State.place, tick_config] at place

/-! ## The flag events (R633 to R635, R641) -/

theorem flagDot_entry {L : Nat} {s : State} (h : L = s.config.vblankLine) : flagDot L 1 s = enterVblank s := by
  rw [flagDot, if_neg (by decide), if_pos h]

theorem flagDot_exit {L : Nat} {s : State} (apart : L ≠ s.config.vblankLine) (h : L = s.config.prescanLine) :
    flagDot L 1 s = s.setPpu { s.ppu with vblank := false } := by
  rw [flagDot, if_neg (by decide), if_neg apart, if_pos h]

theorem flagDot_other {L D : Nat} {s : State}
    (h : ¬ (D = 1 ∧ (L = s.config.vblankLine ∨ L = s.config.prescanLine))) : flagDot L D s = s := by
  rw [flagDot]
  by_cases first : D = 1
  · rw [if_neg (not_not.mpr first), if_neg fun e => h ⟨first, .inl e⟩, if_neg fun e => h ⟨first, .inr e⟩]
  · rw [if_pos first]

/-- VBlank entry sets the flag and gives the host one frame (R633). -/
theorem dotActions_entry {L : Nat} {s : State} (h : L = s.config.vblankLine) :
    (dotActions L 1 s).ppu.vblank = true ∧ (dotActions L 1 s).host.out.length = s.host.out.length + 1 := by
  obtain ⟨t, quiet, drawn, e⟩ := dotActions_eq L 1 s
  rw [← drawn.stepFrame.config] at h
  rw [e, flagDot_entry h, ← quiet.host]
  exact ⟨rfl, rfl⟩

/-- VBlank exit clears the flag, and not the NMI line (R634). -/
theorem dotActions_exit {L : Nat} {s : State} (apart : L ≠ s.config.vblankLine) (h : L = s.config.prescanLine) :
    (dotActions L 1 s).ppu.vblank = false ∧ (dotActions L 1 s).nmiLine = s.nmiLine ∧
      (dotActions L 1 s).host = s.host := by
  obtain ⟨t, quiet, drawn, e⟩ := dotActions_eq L 1 s
  rw [← drawn.stepFrame.config] at apart h
  rw [e, flagDot_exit apart h]
  exact ⟨rfl, quiet.nmi, quiet.host⟩

/-- A dot that is no event keeps the flag, the line and the host's side. -/
theorem dotActions_quiet {L D : Nat} {s : State}
    (h : ¬ (D = 1 ∧ (L = s.config.vblankLine ∨ L = s.config.prescanLine))) : Quiet s (dotActions L D s) := by
  obtain ⟨t, quiet, drawn, e⟩ := dotActions_eq L D s
  rw [← drawn.stepFrame.config] at h
  rw [e, flagDot_other h]
  exact quiet

/-- A line that is neither visible nor the prescan line does nothing but the flag events (R624). -/
theorem dotActions_idle {L : Nat} (D : Nat) {s : State} (visible : 240 ≤ L) (prescan : L ≠ s.config.prescanLine) :
    dotActions L D s = flagDot L D s := by
  rw [dotActions, if_neg (by omega), if_neg (by omega)]

/-- Settles O21: the events by the cases of `flagDot`, and that no dot clears the line by the frame of a tick. -/
theorem vblankEvents : Obligations.VblankEvents := by
  refine ⟨fun s low apart => ⟨?entry, dotActions_exit apart.symm rfl⟩, fun s l d h => ?other,
    fun s n => (tick_onlyDrawn n s).nmi⟩
  case entry =>
    rw [dotActions_idle 1 low apart, flagDot_entry rfl]
    rfl
  case other =>
    have quiet := dotActions_quiet h
    exact ⟨quiet.vblank, quiet.nmi, quiet.host⟩

/-! ## The timeline (R641) -/

theorem dot_entry {s : State} (dot : s.ppu.dot = 1) (line : s.ppu.line = s.config.vblankLine) :
    (Machine.dot s).ppu.vblank = true ∧ (Machine.dot s).host.out.length = s.host.out.length + 1 := by
  rw [dot_eq, dot]
  exact dotActions_entry line

theorem dot_exit {s : State} (apart : s.ppu.line ≠ s.config.vblankLine) (dot : s.ppu.dot = 1)
    (line : s.ppu.line = s.config.prescanLine) :
    (Machine.dot s).ppu.vblank = false ∧ (Machine.dot s).host = s.host := by
  obtain ⟨flag, -, host⟩ := dotActions_exit apart line
  rw [dot_eq, dot]
  exact ⟨flag, host⟩

theorem dot_quiet {s : State}
    (h : ¬ (s.ppu.dot = 1 ∧ (s.ppu.line = s.config.vblankLine ∨ s.ppu.line = s.config.prescanLine))) :
    (dot s).ppu.vblank = s.ppu.vblank ∧ (dot s).host = s.host := by
  have quiet := dotActions_quiet h
  rw [dot_eq]
  exact ⟨quiet.vblank, quiet.host⟩

/-- With the default parameters a place names its line and dot. -/
theorem place_eq_iff {s : State} (config : s.config = defaultConfig) (h : s.RasterInRange) {l d : Nat} (hd : d < 341) :
    s.place = l * 341 + d ↔ s.ppu.line = l ∧ s.ppu.dot = d := by
  obtain ⟨-, -, dot⟩ := h
  rw [config] at dot
  have width : s.config.dotsPerLine = 341 := by rw [config]; rfl
  change s.ppu.dot < 341 at dot
  rw [State.place, width]
  omega

/-- The flag and the frame callbacks n dots after (261, 0), from state s to state t. -/
structure Timeline (s : State) (n : Nat) (t : State) : Prop where
  flag : 2 ≤ n → (t.ppu.vblank = true ↔ 82524 ≤ n % 89342 ∨ n % 89342 < 2)
  frames : t.host.out.length = s.host.out.length + (n + 6818) / 89342

/-- One dot more: the entry dot is the 82,524th of a frame of dots from (261, 0), the exit dot the second. -/
theorem Timeline.dot {s t : State} {n : Nat} (h : Timeline s n t) (config : t.config = defaultConfig)
    (inRange : t.RasterInRange) (place : t.place = (89001 + n) % 89342) : Timeline s (n + 1) (Machine.dot t) := by
  have vblankLine : t.config.vblankLine = 241 := by rw [config]; rfl
  have prescanLine : t.config.prescanLine = 261 := by rw [config]; rfl
  have entryPlace := place_eq_iff config inRange (l := 241) (d := 1) (by decide)
  have exitPlace := place_eq_iff config inRange (l := 261) (d := 1) (by decide)
  obtain ⟨flag, frames⟩ := h
  by_cases entry : t.ppu.line = 241 ∧ t.ppu.dot = 1
  · obtain ⟨raised, fired⟩ := dot_entry entry.2 (entry.1.trans vblankLine.symm)
    rw [← entryPlace] at entry
    exact ⟨fun _ => by simp only [raised, true_iff]; omega, by omega⟩
  by_cases exit : t.ppu.line = 261 ∧ t.ppu.dot = 1
  · obtain ⟨cleared, host⟩ := dot_exit (by omega) exit.2 (exit.1.trans prescanLine.symm)
    rw [← exitPlace] at exit
    exact ⟨fun _ => by simp only [cleared, Bool.false_eq_true, false_iff]; omega, by rw [host]; omega⟩
  · obtain ⟨kept, host⟩ := dot_quiet (s := t) (by omega)
    rw [← entryPlace] at entry
    rw [← exitPlace] at exit
    exact ⟨fun _ => by rw [kept, flag (by omega)]; omega, by rw [host]; omega⟩

/-- A state at the reset position with the default parameters. -/
theorem resetPosition_inRange {s : State} (config : s.config = defaultConfig) (line : s.ppu.line = 261)
    (dot : s.ppu.dot = 0) : s.RasterInRange := by
  rw [State.RasterInRange, config, line, dot]
  exact ⟨defaultConfig_wf, by decide, by decide⟩

theorem resetPosition_place {s : State} (config : s.config = defaultConfig) (line : s.ppu.line = 261)
    (dot : s.ppu.dot = 0) : s.place = 89001 :=
  (place_eq_iff config (resetPosition_inRange config line dot) (l := 261) (d := 0) (by decide)).mpr ⟨line, dot⟩

theorem tick_timeline {s : State} (config : s.config = defaultConfig) (line : s.ppu.line = 261) (dot : s.ppu.dot = 0)
    (n : Nat) : Timeline s n (tick n s) := by
  have inRange := resetPosition_inRange config line dot
  have start := resetPosition_place config line dot
  induction n with
  | zero => exact ⟨fun h => by omega, rfl⟩
  | succ n ih =>
    have place := tick_place n inRange
    rw [start, config] at place
    rw [tick_succ]
    exact ih.dot ((tick_config n s).trans config) (tick_inRange n inRange) place

/-- Settles O20: the timeline is `tick_timeline`, and the raster after a line of dots is `tick_place`. -/
theorem vblankTimelineFromReset : Obligations.VblankTimelineFromReset := by
  intro s n config line dot
  have inRange := resetPosition_inRange config line dot
  have timeline := tick_timeline config line dot
  have start := resetPosition_place config line dot
  have place : (tick 341 s).place = 0 * 341 + 0 := by
    rw [tick_place 341 inRange, start, config]
    rfl
  refine ⟨(place_eq_iff ((tick_config 341 s).trans config) (tick_inRange 341 inRange) (by decide)).mp place, ?_, ?_,
    (timeline n).flag, (timeline n).frames⟩
  · rw [← Bool.not_eq_true, (timeline 82523).flag (by decide)]
    decide
  · exact ((timeline 82524).flag (by decide)).mpr (by decide)

/-! ## What a tick leaves alone (R640) -/

theorem variant_number_eq_four_iff (v : Variant) : v.number = 4 ↔ ∃ r, v = .mmc3 r := by
  cases v <;> simp [Variant.number]

/-- From s to t, v, the mapper and the IRQ line are kept. -/
structure FetchesNothing (s t : State) : Prop where
  vReg : t.ppu.v = s.ppu.v
  map : t.map = s.map
  irqLine : t.irqLine = s.irqLine

theorem FetchesNothing.refl (s : State) : FetchesNothing s s := ⟨rfl, rfl, rfl⟩

theorem FetchesNothing.trans {s t u : State} (h : FetchesNothing s t) (k : FetchesNothing t u) : FetchesNothing s u :=
  ⟨k.vReg.trans h.vReg, k.map.trans h.map, k.irqLine.trans h.irqLine⟩

theorem rendering_eq_false_iff (p : Ppu) :
    p.rendering = false ↔ p.mask.getLsbD 3 = false ∧ p.mask.getLsbD 4 = false :=
  Bool.or_eq_false_iff

theorem rendering_eq_true_iff (p : Ppu) :
    p.rendering = true ↔ p.mask.getLsbD 3 = true ∨ p.mask.getLsbD 4 = true :=
  Bool.or_eq_true_iff

/-- With rendering disabled a dot is the pixel, on visible lines, and the flag events (R637). -/
theorem dotActions_disabled {s : State} (off : s.ppu.rendering = false) (L D : Nat) :
    dotActions L D s = flagDot L D (if L < 240 ∧ 1 ≤ D ∧ D ≤ 256 then pixel L D s else s) := by
  rw [dotActions, if_neg (by simp [off])]

theorem pixel_fetchesNothing (L D : Nat) (s : State) : FetchesNothing s (pixel L D s) := ⟨rfl, rfl, rfl⟩

theorem flagDot_fetchesNothing (L D : Nat) (s : State) : FetchesNothing s (flagDot L D s) := by
  rw [flagDot]
  split_ifs <;> exact ⟨rfl, rfl, rfl⟩

theorem dot_fetchesNothing {s : State} (off : s.ppu.rendering = false) : FetchesNothing s (dot s) := by
  have actions : FetchesNothing s (dotActions s.ppu.line s.ppu.dot s) := by
    rw [dotActions_disabled off]
    refine .trans ?_ (flagDot_fetchesNothing _ _ _)
    split
    · exact pixel_fetchesNothing _ _ s
    · exact .refl s
  rw [dot_eq]
  exact ⟨actions.vReg, actions.map, actions.irqLine⟩

theorem tick_fetchesNothing {s : State} (off : s.ppu.rendering = false) (n : Nat) : FetchesNothing s (tick n s) := by
  induction n with
  | zero => exact .refl s
  | succ n ih =>
    have still : (tick n s).ppu.rendering = false := by rw [Ppu.rendering, (tick_onlyDrawn n s).mask]; exact off
    rw [tick_succ]
    exact ih.trans (dot_fetchesNothing still)

/-- Settles O25: the frame of a tick, and with rendering disabled that nothing is fetched. -/
theorem renderingLeavesTheRest : Obligations.RenderingLeavesTheRest := by
  intro n s
  have drawn := tick_onlyDrawn n s
  refine ⟨drawn.rest, drawn.ctrl, drawn.mask, drawn.oamAddr, drawn.tReg, drawn.xReg, drawn.wReg, drawn.readBuffer,
    drawn.map, fun other => ?_, drawn.counter, drawn.host, fun background sprites => ?_⟩
  · exact (drawn.other (by rw [ne_eq, variant_number_eq_four_iff]; simpa using other)).1
  · have idle := tick_fetchesNothing ((rendering_eq_false_iff s.ppu).mpr ⟨background, sprites⟩) n
    exact ⟨idle.vReg, idle.map, idle.irqLine⟩

/-! ## Shift registers and scroll address (R627, R628, R630 to R632) -/

theorem rev8_getLsbD (b : Byte) {i : Nat} (h : i < 8) : (rev8 b).getLsbD i = b.getLsbD (7 - i) := by
  simp only [rev8, BitVec.getLsbD_append, BitVec.getLsbD_ofBool]
  interval_cases i <;> simp

theorem eightCopies_getLsbD (b : Bool) {i : Nat} (h : i < 8) : (eightCopies b).getLsbD i = b := by
  rw [eightCopies]
  interval_cases i <;> cases b <;> rfl

/-- A reload of a shift register keeps its low byte. -/
theorem setField_low_byte (r : BitVec 16) (b : Byte) {i : Nat} (h : i < 8) :
    (setField r 8 b).getLsbD i = r.getLsbD i := by
  rw [setField_getLsbD _ _ _ (by omega), if_neg (by omega)]

theorem setField_high_byte (r : BitVec 16) (b : Byte) {i : Nat} (h : i < 8) :
    (setField r 8 b).getLsbD (8 + i) = b.getLsbD i := by
  rw [setField_getLsbD _ _ _ (by omega), if_pos (by omega), Nat.add_sub_cancel_left]

theorem reloaded_getLsbD (p : Ppu) {i : Nat} (h : i < 8) :
    p.reloaded.bgLo.getLsbD i = p.bgLo.getLsbD i ∧ p.reloaded.bgLo.getLsbD (8 + i) = p.ptLoLatch.getLsbD (7 - i) ∧
    p.reloaded.bgHi.getLsbD i = p.bgHi.getLsbD i ∧ p.reloaded.bgHi.getLsbD (8 + i) = p.ptHiLatch.getLsbD (7 - i) ∧
    p.reloaded.atLo.getLsbD i = p.atLo.getLsbD i ∧ p.reloaded.atLo.getLsbD (8 + i) = p.atLatch.getLsbD 0 ∧
    p.reloaded.atHi.getLsbD i = p.atHi.getLsbD i ∧ p.reloaded.atHi.getLsbD (8 + i) = p.atLatch.getLsbD 1 := by
  have reversed (r : BitVec 16) (b : Byte) : (setField r 8 (rev8 b)).getLsbD (8 + i) = b.getLsbD (7 - i) :=
    (setField_high_byte r _ h).trans (rev8_getLsbD b h)
  have copied (r : BitVec 16) (b : Bool) : (setField r 8 (eightCopies b)).getLsbD (8 + i) = b :=
    (setField_high_byte r _ h).trans (eightCopies_getLsbD b h)
  exact ⟨setField_low_byte _ _ h, reversed _ _, setField_low_byte _ _ h, reversed _ _,
    setField_low_byte _ _ h, copied _ _, setField_low_byte _ _ h, copied _ _⟩

/-- A field equals a constant exactly when its number does. -/
theorem extractLsb'_eq_iff {n : Nat} (v : BitVec n) (k w : Nat) (c : BitVec w) :
    v.extractLsb' k w = c ↔ v.toNat / 2 ^ k % 2 ^ w = c.toNat := by
  rw [← extractLsb'_toNat, BitVec.toNat_inj]

theorem incCoarseX_wrap {v : Scroll} (h : v.toNat % 32 = 31) {i : Nat} (hi : i < 15) :
    (incCoarseX v).getLsbD i = if i < 5 then false else if i = 10 then !v.getLsbD 10 else v.getLsbD i := by
  have column : v.extractLsb' 0 5 = 31 := (extractLsb'_eq_iff v 0 5 31).mpr (by rw [Nat.pow_zero, Nat.div_one]; exact h)
  rw [incCoarseX, if_pos column, BitVec.getLsbD_xor, setField_getLsbD _ _ _ hi]
  interval_cases i <;> simp

theorem incCoarseX_next {v : Scroll} (h : v.toNat % 32 ≠ 31) : (incCoarseX v).toNat = v.toNat + 1 := by
  have last : v.extractLsb' 0 5 ≠ 31 := fun e => h ((extractLsb'_zero_toNat v 5).symm.trans (congrArg BitVec.toNat e))
  rw [incCoarseX, if_neg last, setField_next_toNat v (by decide) (by omega), Nat.pow_zero]

/-- Clearing a fine Y of 7. -/
theorem fineY_zero_toNat {v : Scroll} (fine : v.toNat / 0x1000 = 7) :
    (setField v 12 (0 : BitVec 3)).toNat + 0x7000 = v.toNat := by
  have stored := setField_toNat v (k := 12) (0 : BitVec 3) (by decide)
  have zero : (0 : BitVec 3).toNat = 0 := rfl
  rw [zero] at stored
  omega

theorem incY_fine {v : Scroll} (h : v.toNat / 0x1000 < 7) : (incY v).toNat = v.toNat + 0x1000 := by
  have fine : (v.extractLsb' 12 3).toNat < 7 := by
    rw [extractLsb'_toNat]
    omega
  rw [incY, if_pos fine, setField_next_toNat v (by decide) (by omega)]
  rfl

/-- At fine Y 7 the row decides. -/
theorem incY_row {v : Scroll} (fine : v.toNat / 0x1000 = 7) : incY v =
    if v.toNat / 0x20 % 0x20 = 29 then setField (setField v 12 (0 : BitVec 3)) 5 (0 : BitVec 5) ^^^ 0x0800
    else if v.toNat / 0x20 % 0x20 = 31 then setField (setField v 12 (0 : BitVec 3)) 5 (0 : BitVec 5)
    else setField (setField v 12 (0 : BitVec 3)) 5 (v.extractLsb' 5 5 + 1) := by
  have last : ¬ (v.extractLsb' 12 3).toNat < 7 := by
    rw [extractLsb'_toNat]
    omega
  rw [incY, if_neg last]
  simp only [extractLsb'_eq_iff]
  rfl

/-- Bit i of v with fine Y and coarse Y cleared. -/
theorem clearedY_getLsbD (v : Scroll) {i : Nat} (h : i < 15) :
    (setField (setField v 12 (0 : BitVec 3)) 5 (0 : BitVec 5)).getLsbD i =
      if 12 ≤ i ∨ (5 ≤ i ∧ i < 10) then false else v.getLsbD i := by
  rw [setField_getLsbD _ _ _ h, setField_getLsbD _ _ _ h]
  interval_cases i <;> simp

theorem incY_row29 {v : Scroll} (fine : v.toNat / 0x1000 = 7) (row : v.toNat / 0x20 % 0x20 = 29) {i : Nat}
    (h : i < 15) : (incY v).getLsbD i =
      if 12 ≤ i ∨ (5 ≤ i ∧ i < 10) then false else if i = 11 then !v.getLsbD 11 else v.getLsbD i := by
  rw [incY_row fine, if_pos row, BitVec.getLsbD_xor, clearedY_getLsbD v h]
  interval_cases i <;> simp

theorem incY_row31 {v : Scroll} (fine : v.toNat / 0x1000 = 7) (row : v.toNat / 0x20 % 0x20 = 31) {i : Nat}
    (h : i < 15) : (incY v).getLsbD i = if 12 ≤ i ∨ (5 ≤ i ∧ i < 10) then false else v.getLsbD i := by
  rw [incY_row fine, if_neg (by omega), if_pos row, clearedY_getLsbD v h]

theorem incY_next {v : Scroll} (fine : v.toNat / 0x1000 = 7) (row29 : v.toNat / 0x20 % 0x20 ≠ 29)
    (row31 : v.toNat / 0x20 % 0x20 ≠ 31) : (incY v).toNat = v.toNat - 0x7000 + 0x20 := by
  have cleared := fineY_zero_toNat fine
  have row : v.extractLsb' 5 5 = (setField v 12 (0 : BitVec 3)).extractLsb' 5 5 := by
    apply BitVec.eq_of_toNat_eq
    rw [extractLsb'_toNat, extractLsb'_toNat]
    omega
  rw [incY_row fine, if_neg row29, if_neg row31, row, setField_next_toNat _ (by decide) (by omega)]
  omega

/-- A copy from t under a mask, bit by bit. -/
theorem maskedCopy_getLsbD (v t m : Scroll) {i : Nat} (h : i < 15) :
    ((v &&& ~~~m) ||| (t &&& m)).getLsbD i = if m.getLsbD i then t.getLsbD i else v.getLsbD i := by
  rw [BitVec.getLsbD_or, BitVec.getLsbD_and, BitVec.getLsbD_and, BitVec.getLsbD_not]
  cases m.getLsbD i <;> simp [h]

theorem copyHorizontal_getLsbD (v t : Scroll) {i : Nat} (h : i < 15) :
    (copyHorizontal v t).getLsbD i = if i < 5 ∨ i = 10 then t.getLsbD i else v.getLsbD i := by
  have bits : ∀ j < 15, (0x041F : Scroll).getLsbD j = decide (j < 5 ∨ j = 10) := by decide
  rw [copyHorizontal, maskedCopy_getLsbD v t _ h, bits i h]
  simp only [decide_eq_true_eq]

theorem copyVertical_getLsbD (v t : Scroll) {i : Nat} (h : i < 15) :
    (copyVertical v t).getLsbD i = if (5 ≤ i ∧ i < 10) ∨ 11 ≤ i then t.getLsbD i else v.getLsbD i := by
  have bits : ∀ j < 15, (0x7BE0 : Scroll).getLsbD j = decide ((5 ≤ j ∧ j < 10) ∨ 11 ≤ j) := by decide
  rw [copyVertical, maskedCopy_getLsbD v t _ h, bits i h]
  simp only [decide_eq_true_eq]

/-- The phase-7 fetch: the mapper's monitor leaves the PPU alone, so the reload starts from the latched byte. -/
theorem backgroundFetch_seven_ppu (s : State) :
    (backgroundFetch 7 s).ppu =
      { ({ s.ppu with ptHiLatch := vRead s (s.ppu.ptAddr + 8) } : Ppu).reloaded with v := incCoarseX s.ppu.v } := by
  simp only [backgroundFetch, State.setPpu_ppu, mapperVideoRead_ppu]

/-- Settles O22: each operation by its bits or its number; the dots are the definitions'. -/
theorem scrollAndShiftRegisters : Obligations.ScrollAndShiftRegisters :=
  ⟨fun p => ⟨rfl, rfl, fun _ => reloaded_getLsbD p⟩, fun _ => ⟨fun h _ => incCoarseX_wrap h, incCoarseX_next⟩,
    fun _ => ⟨incY_fine, fun fine row _ => incY_row29 fine row, fun fine row _ => incY_row31 fine row, incY_next⟩,
    fun v t _ h => ⟨copyHorizontal_getLsbD v t h, copyVertical_getLsbD v t h⟩,
    fun s _ => ⟨backgroundFetch_seven_ppu s, rfl, rfl⟩⟩

/-! ## Pixels (R629, R637) -/

theorem ofBool_pair_toNat (h l : Bool) :
    (BitVec.ofBool h ++ BitVec.ofBool l).toNat = 2 * (if h then 1 else 0) + (if l then 1 else 0) := by
  revert h l
  decide

/-- A palette address from two pairs of bits. -/
theorem paletteAddr_eq (high low : BitVec 2) :
    (0x3F00 + (high ++ low).setWidth 14 : VAddr) = BitVec.ofNat 14 (0x3F00 + high.toNat * 4 + low.toNat) := by
  revert high low
  decide

theorem patternBits_toNat (p : Ppu) (X : Nat) : (p.patternBits X).toNat =
    if p.mask.getLsbD 3 = false ∨ (p.mask.getLsbD 1 = false ∧ X < 8) then 0
    else 2 * (if p.bgHi.getLsbD p.x.toNat then 1 else 0) + (if p.bgLo.getLsbD p.x.toNat then 1 else 0) := by
  rw [Ppu.patternBits, ← ofBool_pair_toNat, apply_ite BitVec.toNat]
  simp only [Bool.or_eq_true, Bool.and_eq_true, Bool.not_eq_true', decide_eq_true_eq]
  rfl

theorem attributeBits_toNat (p : Ppu) : p.attributeBits.toNat =
    2 * (if p.atHi.getLsbD p.x.toNat then 1 else 0) + (if p.atLo.getLsbD p.x.toNat then 1 else 0) :=
  ofBool_pair_toNat _ _

/-- The backdrop where rendering is disabled or the pattern bits are 0, else the cell the bits name. -/
theorem colourAddr_eq (p : Ppu) (X : Nat) : p.colourAddr X =
    if (p.mask.getLsbD 3 = false ∧ p.mask.getLsbD 4 = false) ∨ (p.patternBits X).toNat = 0 then 0x3F00
    else BitVec.ofNat 14 (0x3F00 + p.attributeBits.toNat * 4 + (p.patternBits X).toNat) := by
  have zero : (p.patternBits X).toNat = 0 ↔ p.patternBits X = 0 := BitVec.toNat_inj (y := 0)
  simp only [Ppu.colourAddr, paletteAddr_eq, ← rendering_eq_false_iff, zero]
  cases p.rendering <;> by_cases hidden : p.patternBits X = 0 <;> simp [hidden]

/-- Settles O23: the pixel by its palette address, and a dot with rendering disabled. -/
theorem pixelFormation : Obligations.PixelFormation := by
  refine ⟨fun s L X _ => ?_, fun s L D background sprites =>
    dotActions_disabled ((rendering_eq_false_iff s.ppu).mpr ⟨background, sprites⟩) L D⟩
  rw [pixel, Nat.add_sub_cancel, colourAddr_eq, patternBits_toNat, attributeBits_toNat, apply_ite (vRead s)]
  rfl

/-! ## Fetches (R624 to R626, R636) -/

/-- `NTaddr` as fields: `10`, then v[11:0]. -/
theorem ntAddr_eq_append (p : Ppu) : p.ntAddr = (0b10 : BitVec 2) ++ p.v.extractLsb' 0 12 := by
  apply BitVec.eq_of_getLsbD_eq
  intro i hi
  rw [Ppu.ntAddr, Ppu.busAddr, BitVec.getLsbD_append]
  interval_cases i <;> simp

theorem ntAddr_toNat (p : Ppu) : p.ntAddr.toNat = 0x2000 + p.v.toNat % 0x1000 := by
  rw [ntAddr_eq_append, append_toNat, extractLsb'_zero_toNat]
  rfl

/-- `ATaddr` as fields: `10`, v[11:10], `1111`, v[9:7], v[4:2]. -/
theorem atAddr_eq_append (p : Ppu) : p.atAddr = (0b10 : BitVec 2) ++ p.v.extractLsb' 10 2 ++ (0b1111 : BitVec 4) ++
    p.v.extractLsb' 7 3 ++ p.v.extractLsb' 2 3 := by
  apply BitVec.eq_of_getLsbD_eq
  intro i hi
  simp only [Ppu.atAddr, Ppu.busAddr, BitVec.getLsbD_append]
  interval_cases i <;> simp

theorem atAddr_toNat (p : Ppu) : p.atAddr.toNat =
    0x23C0 + p.v.toNat / 0x400 % 4 * 0x400 + p.v.toNat / 0x80 % 8 * 8 + p.v.toNat / 4 % 8 := by
  simp only [atAddr_eq_append, append_toNat, extractLsb'_toNat, BitVec.reduceToNat]
  omega

/-- `AtShift` as fields: v[6], v[1], `0`. -/
theorem atShift_eq_append (p : Ppu) : (((p.v >>> 4) &&& 4) ||| (p.v &&& 2)) =
    (0 : BitVec 12) ++ p.v.extractLsb' 6 1 ++ p.v.extractLsb' 1 1 ++ (0 : BitVec 1) := by
  apply BitVec.eq_of_getLsbD_eq
  intro i hi
  simp only [BitVec.getLsbD_append]
  interval_cases i <;> simp

theorem atShift_eq (p : Ppu) : p.atShift = p.v.toNat / 0x40 % 2 * 4 + p.v.toNat / 2 % 2 * 2 := by
  rw [Ppu.atShift, atShift_eq_append]
  simp only [append_toNat, extractLsb'_toNat, BitVec.reduceToNat]
  omega

theorem ptAddr_toNat (p : Ppu) : p.ptAddr.toNat =
    (if p.ctrl.getLsbD 4 then 0x1000 else 0) + p.ntLatch.toNat * 16 + p.v.toNat / 0x1000 := by
  simp only [Ppu.ptAddr, BitVec.toNat_add, BitVec.toNat_shiftLeft, BitVec.toNat_setWidth, extractLsb'_toNat,
    BitVec.natCast_eq_ofNat, BitVec.toNat_ofNat, Nat.shiftLeft_eq]
  split <;> omega

theorem spAddr_toNat (p : Ppu) : p.spAddr.toNat =
    if p.ctrl.getLsbD 5 then 0x1000 + 0xFE * 16 else (if p.ctrl.getLsbD 3 then 0x1000 else 0) + 0xFF * 16 := by
  rw [Ppu.spAddr]
  split_ifs <;> rfl

theorem backgroundFetch_idle (s : State) : ∀ f ∈ [0, 2, 4, 6], backgroundFetch f s = s := by
  simp only [List.forall_mem_cons]
  exact ⟨rfl, rfl, rfl, rfl, nofun⟩

theorem attributeLatch_toNat (b : Byte) (k : Nat) : ((b >>> k).extractLsb' 0 2).toNat = b.toNat / 2 ^ k % 4 := by
  rw [extractLsb'_zero_toNat, BitVec.toNat_ushiftRight, Nat.shiftRight_eq_div_pow]
  rfl

theorem dotActions_steps (s : State) (L D : Nat) : dotActions L D s =
    (let drawn := if L < 240 ∧ 1 ≤ D ∧ D ≤ 256 then pixel L D s else s
     flagDot L D
      (if (L < 240 ∨ L = s.config.prescanLine) ∧ (s.ppu.mask.getLsbD 3 = true ∨ s.ppu.mask.getLsbD 4 = true) then
        verticalCopyDot L D (spriteDot D (scrollDot D (fetchDot D drawn))) else drawn)) := by
  simp only [dotActions, renderDot, rendering_eq_true_iff]

/-- Settles O24: the addresses by their numbers, the fetches and the order of a dot's actions by their definitions. -/
theorem fetchSchedule : Obligations.FetchSchedule :=
  ⟨fun p => ⟨ntAddr_toNat p, atAddr_toNat p, atShift_eq p, ptAddr_toNat p, spAddr_toNat p⟩,
    fun s => ⟨backgroundFetch_idle s, rfl, ⟨_, attributeLatch_toNat _ _, rfl⟩, rfl, rfl⟩,
    fun _ _ => ⟨rfl, rfl⟩, fun s L D => ⟨rfl, dotActions_steps s L D⟩⟩

end Sys2Proof.Machine

/-! # Proofs: the cartridge and the mapper (51_cartridge_mapper)

A remap is one equation of the mapper state (`prg32_eq`, `chr8_eq` and their kind), so a reset or an apply step is the
remaps it makes. MMC1's port and MMC3's counter are said by one write and one clock, and then by induction over them. -/

namespace Sys2Proof.Machine

/-! ## Bank numbers (R710) -/

/-- Adding the bank count once makes the truncated remainder the mathematical one. -/
theorem bankIndex_eq_emod {n : Nat} (h : 1 ≤ n) (i : Int) : (bankIndex n i : Int) = i % n := by
  have low : -(n : Int) < i.tmod n := Int.lt_tmod_of_pos i (by omega)
  have shifted : (i.tmod n + n).tmod n = i % n := by
    rw [Int.tmod_eq_emod_of_nonneg (by omega), Int.add_emod_right, Int.tmod_def, Int.sub_mul_emod_self_left]
  rw [bankIndex, shifted]
  exact Int.toNat_of_nonneg (Int.emod_nonneg i (by omega))

theorem bankIndex_nat {n : Nat} (h : 1 ≤ n) (i : Nat) : bankIndex n i = i % n := by
  have := bankIndex_eq_emod h i
  omega

/-- The bank before bank 0 is the last one. -/
theorem bankIndex_neg_one {n : Nat} (h : 1 ≤ n) : bankIndex n (-1) = n - 1 := by
  have last : (-1 : Int) % n = n - 1 := by
    rw [← Int.add_emod_right, Int.emod_eq_of_lt] <;> omega
  have := bankIndex_eq_emod h (-1)
  omega

/-- Settles O12: bank numbers by `bankIndex_eq_emod`, windows by their definitions, and the router's row for $8000-$FFFF. -/
theorem windowsResolveAfresh : Obligations.WindowsResolveAfresh := by
  refine ⟨fun n i h => ⟨bankIndex_lt n i h, bankIndex_eq_emod h i, ?_, bankIndex_neg_one h⟩,
    fun s i a d => ⟨rfl, rfl, rfl, rfl, rfl, rfl, rfl, rfl⟩, fun s a d h => ?_⟩
  · have last := bankIndex_nat h (n - 1)
    rw [Nat.mod_eq_of_lt (by omega), Nat.cast_sub h, Nat.cast_one] at last
    rw [bankIndex_neg_one h, last]
  · rw [memWrite_prgRom s d h]
    exact ⟨rfl, rfl, rfl⟩

/-! ## Whole remaps -/

theorem prg16_both (m : MapperState) (b c : Int) : (m.prg16Low b).prg16High c =
    { m with prg := #v[⟨.prgRom, 2 * b⟩, ⟨.prgRom, 2 * b + 1⟩, ⟨.prgRom, 2 * c⟩, ⟨.prgRom, 2 * c + 1⟩] } := by
  rw [MapperState.prg16Low, MapperState.prg16High, setPrg_four]

theorem chr4_both (m : MapperState) (s : Segment) (b c : Int) : (m.chr4Low s b).chr4High s c =
    { m with chr := Vector.ofFn (fun j => ⟨s, if j.val < 4 then 4 * b + j.val else 4 * c + (j.val - 4)⟩) } := by
  rw [MapperState.chr4Low, MapperState.chr4High, setChr_eight]
  congr 1
  ext k hk
  interval_cases k <;> simp

/-! ## NROM, UxROM, CNROM and AxROM (R720, R730 to R732) -/

/-- A mapper that is not MMC3 does not watch the PPU's reads. -/
theorem mapperVideoRead_other {s : State} (h : s.map.variant.number ≠ 4) (v : VAddr) : mapperVideoRead v s = s := by
  rw [mapperVideoRead]
  split
  case h_1 r e => exact absurd (by rw [e]; rfl) h
  case h_2 => rfl

/-- A register write of a mapper that is not MMC3 changes the mapper state only. -/
theorem mapperWrite_other {s : State} (h : s.map.variant.number ≠ 4) (a : Word) (d : Byte) :
    mapperWrite a d s = s.setMap (s.map.write s.cart.chrSegment a d) := by
  rw [mapperWrite, lineAfterWrite_other _ _ _ h]
  rfl

theorem mapperReset_nrom_cnrom (c : CartInfo) : ∀ v ∈ [Variant.nrom, .cnrom], mapperReset v c =
    { variant := v, prg3 := ⟨.prgRam, 0⟩, prg := #v[⟨.prgRom, 0⟩, ⟨.prgRom, 1⟩, ⟨.prgRom, -2⟩, ⟨.prgRom, -1⟩],
      chr := Vector.ofFn (fun j => ⟨c.chrSegment, j.val⟩), mirroring := c.headerMirroring } := by
  intro v hv
  fin_cases hv <;> simp [mapperReset, MapperState.variantReset, setPrg_four, chr8_eq]

theorem mapperReset_uxrom (c : CartInfo) : mapperReset .uxrom c =
    { variant := .uxrom, prg3 := ⟨.prgRam, 0⟩, prg := #v[⟨.prgRom, 0⟩, ⟨.prgRom, 1⟩, ⟨.prgRom, -2⟩, ⟨.prgRom, -1⟩],
      chr := Vector.ofFn (fun j => ⟨c.chrSegment, j.val⟩), mirroring := c.headerMirroring } := by
  simp [mapperReset, MapperState.variantReset, prg16_both, chr8_eq]

theorem mapperReset_axrom (c : CartInfo) : mapperReset .axrom c =
    { variant := .axrom, prg3 := ⟨.prgRam, 0⟩, prg := #v[⟨.prgRom, 0⟩, ⟨.prgRom, 1⟩, ⟨.prgRom, 2⟩, ⟨.prgRom, 3⟩],
      chr := Vector.ofFn (fun j => ⟨c.chrSegment, j.val⟩), mirroring := .singleLow } := by
  simp [mapperReset, MapperState.variantReset, prg32_eq, chr8_eq, MapperState.setMirroring]
  rfl

/-- Settles O26: the resets and the register writes as whole remaps. -/
theorem discreteMappers : Obligations.DiscreteMappers := by
  refine ⟨fun c => ⟨mapperReset_nrom_cnrom c, mapperReset_uxrom c, mapperReset_axrom c⟩,
    fun s a d v => ⟨fun e => ?nrom, fun e => ?uxrom, fun e => ?cnrom, fun e => ?axrom, fun h => mapperVideoRead_other h v⟩⟩
  all_goals rw [mapperWrite_other (by rw [e]; decide), MapperState.write, e]
  case nrom => rfl
  case uxrom => exact congrArg s.setMap (setPrg_two s.map _ _)
  case cnrom => exact congrArg s.setMap (chr8_eq s.map _ _)
  case axrom =>
    rw [axromWrite, prg32_eq, extractLsb'_zero_toNat]
    rfl

/-! ## MMC1 (R721 to R723) -/

/-- What `Mmc1Apply` makes of the registers, by their numbers (R722). -/
theorem mmc1Apply_eq (r : Mmc1) (c : Segment) (m : MapperState) : mmc1Apply r c m =
    { variant := .mmc1 r, prg3 := m.prg3
      prg := if r.control.toNat / 4 % 4 < 2 then
          Vector.ofFn (fun j => ⟨.prgRom, 4 * ((r.prgBank.toNat % 16 : Nat) / 2 : Int) + j.val⟩)
        else if r.control.toNat / 4 % 4 = 2 then
          #v[⟨.prgRom, 0⟩, ⟨.prgRom, 1⟩, ⟨.prgRom, 2 * (r.prgBank.toNat % 16 : Nat)⟩,
            ⟨.prgRom, 2 * (r.prgBank.toNat % 16 : Nat) + 1⟩]
        else #v[⟨.prgRom, 2 * (r.prgBank.toNat % 16 : Nat)⟩, ⟨.prgRom, 2 * (r.prgBank.toNat % 16 : Nat) + 1⟩,
          ⟨.prgRom, -2⟩, ⟨.prgRom, -1⟩]
      chr := if r.control.getLsbD 4 then
          Vector.ofFn (fun j => ⟨c, if j.val < 4 then 4 * r.chrBank0.toNat + j.val else 4 * r.chrBank1.toNat + (j.val - 4)⟩)
        else Vector.ofFn (fun j => ⟨c, 8 * (r.chrBank0.toNat / 2 : Nat) + j.val⟩)
      mirroring := match r.control.toNat % 4 with
        | 0 => .singleLow
        | 1 => .singleHigh
        | 2 => .vertical
        | _ => .horizontal } := by
  simp only [mmc1Apply, extractLsb'_toNat, Nat.reducePow, Nat.div_one, MapperState.setMirroring, prg32_eq, prg16_both,
    chr8_eq, chr4_both]
  have fourModes : r.control.toNat / 4 % 4 < 4 := Nat.mod_lt _ (by decide)
  generalize r.control.toNat / 4 % 4 = mode at fourModes
  cases r.control.getLsbD 4
  case false => interval_cases mode <;> rfl
  case true => interval_cases mode <;> rfl

/-- Of the mapper state before it `Mmc1Apply` keeps the window of $6000 alone. -/
theorem mmc1Apply_congr (r : Mmc1) (c : Segment) {m n : MapperState} (h : m.prg3 = n.prg3) :
    mmc1Apply r c m = mmc1Apply r c n := by
  rw [mmc1Apply_eq, mmc1Apply_eq, h]

theorem mapperReset_mmc1 (c : CartInfo) (r : Mmc1) :
    mapperReset (.mmc1 r) c = mmc1Apply Mmc1.reset c.chrSegment (mapperReset (.mmc1 r) c) :=
  mmc1Apply_congr Mmc1.reset c.chrSegment (mapperReset_windowsIn (.mmc1 r) c).prg3.symm

theorem mapperReset_mmc1_eq (c : CartInfo) (r : Mmc1) : mapperReset (.mmc1 r) c =
    { variant := .mmc1 Mmc1.reset, prg3 := ⟨.prgRam, 0⟩
      prg := #v[⟨.prgRom, 0⟩, ⟨.prgRom, 1⟩, ⟨.prgRom, -2⟩, ⟨.prgRom, -1⟩]
      chr := Vector.ofFn (fun j => ⟨c.chrSegment, j.val⟩), mirroring := .singleLow } := by
  rw [mapperReset_mmc1, mmc1Apply_eq, (mapperReset_windowsIn _ _).prg3]
  simp [Mmc1.reset]

theorem mapperWrite_mmc1 {s : State} {r : Mmc1} (e : s.map.variant = .mmc1 r) (a : Word) (d : Byte) :
    mapperWrite a d s = s.setMap (mmc1Write r s.cart.chrSegment a d s.map) := by
  rw [mapperWrite_other (by rw [e, Variant.number]; decide), MapperState.write, e]

/-- MMC1's state after a write of the serial port that is neither a reset nor the fifth (R723). -/
def Mmc1.afterBit (r : Mmc1) (d : Byte) : Mmc1 := { r with shift := r.shifted d, count := r.count + 1 }

/-- MMC1's state after such writes, the first of the list first. -/
def Mmc1.afterBits (r : Mmc1) (l : List (Word × Byte)) : Mmc1 := l.foldl (fun t x => t.afterBit x.2) r

theorem Mmc1.afterBits_eq (r : Mmc1) (l : List (Word × Byte)) :
    r.afterBits l = { r with shift := (r.afterBits l).shift, count := r.count + l.length } := by
  induction l generalizing r with
  | nil => rfl
  | cons x l ih =>
    change (r.afterBit x.2).afterBits l = _
    rw [ih]
    simp only [Mmc1.afterBit, Mmc1.afterBits, List.foldl_cons, List.length_cons]
    congr 1
    omega

/-- A shift moves the bits down and puts the bit written on top. -/
theorem Mmc1.shifted_getLsbD (r : Mmc1) (d : Byte) {i : Nat} (h : i < 5) :
    (r.shifted d).getLsbD i = if i = 4 then d.getLsbD 0 else r.shift.getLsbD (i + 1) := by
  rw [Mmc1.shifted, BitVec.getLsbD_append]
  interval_cases i <;> simp

theorem mmc1Write_bit {r : Mmc1} {d : Byte} (clear : d.getLsbD 7 = false) (more : r.count < 4) (c : Segment) (a : Word)
    (m : MapperState) : mmc1Write r c a d m = { m with variant := .mmc1 (r.afterBit d) } := by
  rw [mmc1Write, if_neg (Bool.eq_false_iff.mp clear), if_neg (by omega)]
  rfl

/-- The register an address selects, by the address's number (R723). -/
theorem Mmc1.store_eq (r : Mmc1) (a : Word) (v : BitVec 5) : r.store a v =
    match a.toNat / 0x2000 % 4 with
    | 0 => { r with control := v }
    | 1 => { r with chrBank0 := v }
    | 2 => { r with chrBank1 := v }
    | _ => { r with prgBank := v } := by
  rw [Mmc1.store, extractLsb'_toNat]
  rfl

theorem Mmc1.store_emptied (r : Mmc1) (a : Word) (v : BitVec 5) :
    { r.store a v with shift := 0, count := 0 } = { r with shift := 0, count := 0 }.store a v := by
  rw [Mmc1.store, Mmc1.store]
  split <;> rfl

/-- The fifth write gives its address's register the five bits (R723). -/
theorem mmc1Write_fifth {r : Mmc1} {d : Byte} (clear : d.getLsbD 7 = false) (four : r.count = 4) (c : Segment) (a : Word)
    (m : MapperState) :
    mmc1Write r c a d m = mmc1Apply ({ r with shift := 0, count := 0 }.store a (r.shifted d)) c m := by
  rw [mmc1Write, if_neg (Bool.eq_false_iff.mp clear), if_pos (by omega), Mmc1.store_emptied]

theorem mmc1Writes_cons {m : MapperState} {r : Mmc1} (e : m.variant = .mmc1 r) (x : Word × Byte) (l : List (Word × Byte))
    (c : Segment) : mmc1Writes (x :: l) c m = mmc1Writes l c (mmc1Write r c x.1 x.2 m) := by
  rw [mmc1Writes, List.foldl_cons, e]
  rfl

/-- Writes that leave the port short of five bits only shift. -/
theorem mmc1Writes_bits {m : MapperState} {r : Mmc1} (e : m.variant = .mmc1 r) (c : Segment) {l : List (Word × Byte)}
    (clear : ∀ x ∈ l, x.2.getLsbD 7 = false) (few : r.count + l.length ≤ 4) :
    mmc1Writes l c m = { m with variant := .mmc1 (r.afterBits l) } := by
  induction l generalizing m r with
  | nil => exact congrArg (fun v => { m with variant := v }) e
  | cons x l ih =>
    rw [List.length_cons] at few
    rw [List.forall_mem_cons] at clear
    rw [mmc1Writes_cons e, mmc1Write_bit clear.1 (by omega), ih rfl clear.2 (by simp only [Mmc1.afterBit]; omega)]
    rfl

theorem mmc1Writes_append (l k : List (Word × Byte)) (c : Segment) (m : MapperState) :
    mmc1Writes (l ++ k) c m = mmc1Writes k c (mmc1Writes l c m) := List.foldl_append

/-- The value five writes shift in: each write's low bit, the first one lowest. -/
theorem Mmc1.fiveBits_getLsbD (r : Mmc1) (a1 a2 a3 a4 : Word) (d1 d2 d3 d4 d5 : Byte) :
    let v := (r.afterBits [(a1, d1), (a2, d2), (a3, d3), (a4, d4)]).shifted d5
    v.getLsbD 0 = d1.getLsbD 0 ∧ v.getLsbD 1 = d2.getLsbD 0 ∧ v.getLsbD 2 = d3.getLsbD 0 ∧ v.getLsbD 3 = d4.getLsbD 0 ∧
      v.getLsbD 4 = d5.getLsbD 0 := by
  simp only [Mmc1.afterBits, List.foldl_cons, List.foldl_nil, Mmc1.afterBit, Mmc1.shifted_getLsbD, Nat.reduceLT,
    Nat.reduceAdd, Nat.reduceEqDiff, if_true, if_false, and_self]

/-- Five writes to an empty port: the first four only shift, and the fifth address selects the register (R723). -/
theorem mmc1Writes_five {m : MapperState} {r : Mmc1} (e : m.variant = .mmc1 r) (empty : r.count = 0) (c : Segment)
    {l : List (Word × Byte)} (four : l.length = 4) (clear : ∀ x ∈ l, x.2.getLsbD 7 = false) {d : Byte}
    (last : d.getLsbD 7 = false) (a : Word) : mmc1Writes (l ++ [(a, d)]) c m =
      mmc1Apply ({ r with shift := 0, count := 0 }.store a ((r.afterBits l).shifted d)) c
        { m with variant := .mmc1 (r.afterBits l) } := by
  have full : (r.afterBits l).count = 4 := by rw [Mmc1.afterBits_eq, empty, four]
  have emptied : { r.afterBits l with shift := 0, count := 0 } = { r with shift := 0, count := 0 } := by
    rw [Mmc1.afterBits_eq]
  rw [mmc1Writes_append, mmc1Writes_bits e c clear (by omega), mmc1Writes_cons rfl, mmc1Write_fifth last full, emptied]
  rfl

/-- Settles O27: the windows by `mmc1Apply_eq`, the port by `mmc1Writes_bits` and `mmc1Writes_five`. -/
theorem mmc1SerialPort : Obligations.Mmc1SerialPort := by
  refine ⟨fun c => ⟨mapperReset_mmc1 c _, by rw [mapperReset_mmc1_eq]⟩,
    fun s r a d e => ⟨mapperWrite_mmc1 e a d, fun h => (memWrite_prgRom s d h).trans (mapperWrite_mmc1 e a d)⟩,
    mmc1Apply_eq, fun r c m a d set => if_pos set, ?port⟩
  intro r c m a1 a2 a3 a4 a5 d1 d2 d3 d4 d5 e empty allClear
  have clear : ∀ x ∈ [(a1, d1), (a2, d2), (a3, d3), (a4, d4)], x.2.getLsbD 7 = false := fun x hx =>
    allClear x.2 (List.mem_of_mem_dropLast (List.mem_map_of_mem (f := Prod.snd) hx))
  obtain ⟨bit0, bit1, bit2, bit3, bit4⟩ := r.fiveBits_getLsbD a1 a2 a3 a4 d1 d2 d3 d4 d5
  have five := mmc1Writes_five e empty c rfl clear (allClear d5 (by simp)) a5
  rw [Mmc1.store_eq] at five
  refine ⟨_, bit0, bit1, bit2, bit3, bit4, fun k hk => ?_, { m with variant := _ }, rfl, five⟩
  have taken : ([(a1, d1), (a2, d2), (a3, d3), (a4, d4)].take k).length = k := by simp [hk]
  have state := r.afterBits_eq ([(a1, d1), (a2, d2), (a3, d3), (a4, d4)].take k)
  rw [taken, empty, Nat.zero_add] at state
  exact ⟨_, congrArg Mmc1.count state, state,
    mmc1Writes_bits e c (fun x hx => clear x (List.mem_of_mem_take hx)) (by omega)⟩

/-! ## MMC3's registers (R740, R744, R745) -/

theorem prgBank_and_toNat (b : Byte) : (b &&& 0x3F).toNat = b.toNat % 64 := by
  rw [BitVec.toNat_and]
  exact Nat.and_two_pow_sub_one_eq_mod b.toNat 6

/-- A bank number with its bit 0 replaced. -/
theorem bankWithLow_toNat (b : Byte) (x : BitVec 1) : (b.extractLsb' 1 7 ++ x).toNat = b.toNat / 2 * 2 + x.toNat := by
  have := b.isLt
  rw [append_toNat, extractLsb'_toNat]
  omega

theorem evenBank_toNat (b : Byte) : (b &&& 0xFE).toNat = b.toNat / 2 * 2 := by
  have fields : b &&& 0xFE = b.extractLsb' 1 7 ++ (0 : BitVec 1) := by
    apply BitVec.eq_of_getLsbD_eq
    intro i hi
    rw [BitVec.getLsbD_append]
    interval_cases i <;> simp
  rw [fields, bankWithLow_toNat]
  rfl

theorem oddBank_toNat (b : Byte) : (b ||| 1).toNat = b.toNat / 2 * 2 + 1 := by
  have fields : b ||| 1 = b.extractLsb' 1 7 ++ (1 : BitVec 1) := by
    apply BitVec.eq_of_getLsbD_eq
    intro i hi
    rw [BitVec.getLsbD_append]
    interval_cases i <;> simp
  rw [fields, bankWithLow_toNat]
  rfl

/-- What `Mmc3Apply` makes of the registers, by their numbers (R745). -/
theorem mmc3Apply_eq (r : Mmc3) (c : Segment) (m : MapperState) :
    let prg6 : Window := ⟨.prgRom, (r.R[6].toNat % 64 : Nat)⟩
    let prg7 : Window := ⟨.prgRom, (r.R[7].toNat % 64 : Nat)⟩
    let one (k : Fin 8) : Window := ⟨c, r.R[k].toNat⟩
    let even (k : Fin 8) : Window := ⟨c, (r.R[k].toNat / 2 * 2 : Nat)⟩
    let odd (k : Fin 8) : Window := ⟨c, (r.R[k].toNat / 2 * 2 + 1 : Nat)⟩
    mmc3Apply r c m =
      { variant := .mmc3 r, prg3 := m.prg3, mirroring := m.mirroring
        prg := if r.bankSelect.getLsbD 6 then #v[⟨.prgRom, -2⟩, prg7, prg6, ⟨.prgRom, -1⟩]
          else #v[prg6, prg7, ⟨.prgRom, -2⟩, ⟨.prgRom, -1⟩]
        chr := if r.bankSelect.getLsbD 7 then #v[one 2, one 3, one 4, one 5, even 0, odd 0, even 1, odd 1]
          else #v[even 0, odd 0, even 1, odd 1, one 2, one 3, one 4, one 5] } := by
  simp only [mmc3Apply, MapperState.chrPair, setPrg_four, setChr_eight, prgBank_and_toNat, evenBank_toNat, oddBank_toNat]
  cases r.bankSelect.getLsbD 6 <;> cases r.bankSelect.getLsbD 7 <;> rfl

/-- Of the mapper state before it `Mmc3Apply` keeps the window of $6000 and the mirroring alone. -/
theorem mmc3Apply_congr (r : Mmc3) (c : Segment) {m n : MapperState} (window : m.prg3 = n.prg3)
    (mirroring : m.mirroring = n.mirroring) : mmc3Apply r c m = mmc3Apply r c n := by
  rw [mmc3Apply_eq, mmc3Apply_eq, window, mirroring]

theorem mmc3Apply_mirroring (r : Mmc3) (c : Segment) (m : MapperState) : (mmc3Apply r c m).mirroring = m.mirroring := by
  rw [mmc3Apply_eq]

theorem mapperReset_mmc3_mirroring (c : CartInfo) (r : Mmc3) :
    (mapperReset (.mmc3 r) c).mirroring = c.headerMirroring := mmc3Apply_mirroring _ _ _

theorem mapperReset_mmc3 (c : CartInfo) (r : Mmc3) :
    mapperReset (.mmc3 r) c = mmc3Apply Mmc3.reset c.chrSegment (mapperReset (.mmc3 r) c) :=
  mmc3Apply_congr Mmc3.reset c.chrSegment (mapperReset_windowsIn (.mmc3 r) c).prg3.symm
    (mapperReset_mmc3_mirroring c r).symm

theorem mapperWrite_mmc3 {s : State} {r : Mmc3} (e : s.map.variant = .mmc3 r) (a : Word) (d : Byte) :
    mapperWrite a d s = (s.setIrqLine (s.irqLine && !mmc3Acknowledges a)).setMap
      (mmc3Write r s.cart.chrSegment a d s.map) := by
  rw [mapperWrite, MapperState.lineAfterWrite, MapperState.write, e]

/-- The register that bankSelect selects, by its number. -/
theorem Mmc3.setBank_eq (r : Mmc3) (d : Byte) :
    r.R.set (r.bankSelect.extractLsb' 0 3).toFin d = r.R.set (r.bankSelect.toNat % 8) d (by omega) := by
  have index : (r.bankSelect.extractLsb' 0 3).toFin.val = r.bankSelect.toNat % 8 := extractLsb'_zero_toNat _ _
  simp only [index]

/-- Settles O28: the windows by `mmc3Apply_eq`, and the registers by page and parity of the address. -/
theorem mmc3Registers : Obligations.Mmc3Registers := by
  refine ⟨fun c => ⟨rfl, mapperReset_mmc3 c _, mapperReset_mmc3_mirroring c _⟩, mmc3Apply_eq, fun s r a d e high => ?_⟩
  have page : (a.extractLsb' 13 2).toNat + 4 = a.toNat / 0x2000 := by
    have := a.isLt
    rw [extractLsb'_toNat]
    omega
  have parity : a.getLsbD 0 = decide (a.toNat % 2 = 1) := by
    rw [BitVec.getLsbD, Nat.testBit_zero]
  rw [mapperWrite_mmc3 e, mmc3Write, mmc3Acknowledges, ← page, parity, Mmc3.setBank_eq]
  have fourPages := (a.extractLsb' 13 2).isLt
  generalize (a.extractLsb' 13 2).toNat = k at fourPages
  rcases Nat.mod_two_eq_zero_or_one a.toNat with even | odd
  · simp only [even]
    interval_cases k <;> simp [State.setIrqLine, State.setMap, MapperState.setMirroring]
  · simp only [odd]
    interval_cases k <;> simp [State.setIrqLine, State.setMap]

/-! ## MMC3's counter (R741 to R743) -/

theorem Mmc3.clock_eq (r : Mmc3) : r.clock =
    if r.irqCounter = 0 ∨ r.irqReload = true then { r with irqCounter := r.irqLatch, irqReload := false }
    else { r with irqCounter := r.irqCounter - 1 } := by
  simp only [Mmc3.clock, Bool.or_eq_true, decide_eq_true_eq]

@[simp] theorem Mmc3.clock_irqEnabled (r : Mmc3) : r.clock.irqEnabled = r.irqEnabled := by
  rw [Mmc3.clock]
  split <;> rfl

theorem Mmc3.asserts_iff (r : Mmc3) : r.asserts = true ↔ r.clock.irqCounter = 0 ∧ r.irqEnabled = true := by
  rw [Mmc3.asserts, Bool.and_eq_true, decide_eq_true_eq, Mmc3.clock_irqEnabled]

theorem mapperVideoRead_mmc3 {s : State} {r : Mmc3} (e : s.map.variant = .mmc3 r) (a : VAddr) : mapperVideoRead a s =
    if r.lastA12 = false ∧ a.getLsbD 12 = true then
      { s with irqLine := s.irqLine || r.asserts, map := { s.map with variant := .mmc3 { r.clock with lastA12 := true } } }
    else { s with map := { s.map with variant := .mmc3 { r with lastA12 := a.getLsbD 12 } } } := by
  simp only [mapperVideoRead, e, Mmc3.observe]
  cases r.lastA12 <;> cases a.getLsbD 12 <;> simp [State.setIrqLine, State.setMap]

/-- The first clock reloads, and each of the next ones counts down, until the counter is 0. -/
theorem mmc3Clocks_counter {r : Mmc3} (reload : r.irqReload = true) (line : Bool) {k : Nat} (h : k ≤ r.irqLatch.toNat) :
    (mmc3Clocks (k + 1) r line).1 =
      { r with irqCounter := BitVec.ofNat 8 (r.irqLatch.toNat - k), irqReload := false } := by
  induction k with
  | zero => simp [mmc3Clocks, Mmc3.clock_eq, reload]
  | succ k ih =>
    have counting : BitVec.ofNat 8 (r.irqLatch.toNat - k) ≠ 0 := by bv_omega
    have down : BitVec.ofNat 8 (r.irqLatch.toNat - k) - 1 = BitVec.ofNat 8 (r.irqLatch.toNat - (k + 1)) := by bv_omega
    rw [mmc3Clocks, ih (by omega), Mmc3.clock_eq, if_neg (by simpa using counting), down]

theorem mmc3Clocks_irqEnabled (k : Nat) (r : Mmc3) (line : Bool) : (mmc3Clocks k r line).1.irqEnabled = r.irqEnabled := by
  induction k with
  | zero => rfl
  | succ k ih => rw [mmc3Clocks, Mmc3.clock_irqEnabled, ih]

/-- The line rises at the clock that leaves 0 with interrupts enabled. -/
theorem mmc3Clocks_line (k : Nat) (r : Mmc3) (line : Bool) : (mmc3Clocks (k + 1) r line).2 = true ↔
    (mmc3Clocks k r line).2 = true ∨ ((mmc3Clocks (k + 1) r line).1.irqCounter = 0 ∧ r.irqEnabled = true) := by
  rw [mmc3Clocks, Bool.or_eq_true, Mmc3.asserts_iff, mmc3Clocks_irqEnabled]

theorem mmc3Clocks_line_disabled {r : Mmc3} (off : r.irqEnabled = false) (k : Nat) : (mmc3Clocks k r false).2 = false := by
  induction k with
  | zero => rfl
  | succ k ih => rw [← Bool.not_eq_true, mmc3Clocks_line, ih, off]; simp

/-- After a reload with latch N at least 1, the line rises at clock N + 1 and not before. -/
theorem mmc3Clocks_line_iff {r : Mmc3} (reload : r.irqReload = true) (on : r.irqEnabled = true)
    (latch : 1 ≤ r.irqLatch.toNat) (k : Nat) : (mmc3Clocks k r false).2 = true ↔ r.irqLatch.toNat + 1 ≤ k := by
  induction k with
  | zero => simp [mmc3Clocks]
  | succ k ih =>
    rw [mmc3Clocks_line, ih]
    by_cases h : k ≤ r.irqLatch.toNat
    · rw [mmc3Clocks_counter reload false h]
      have zero : BitVec.ofNat 8 (r.irqLatch.toNat - k) = 0 ↔ r.irqLatch.toNat ≤ k := by bv_omega
      simp only [zero, on, and_true]
      omega
    · simp only [show r.irqLatch.toNat + 1 ≤ k by omega, show r.irqLatch.toNat + 1 ≤ k + 1 by omega, true_or]

/-- Settles O29: the monitor and the clock by their cases, and the scanline law by induction over the clocks. -/
theorem mmc3ScanlineCounter : Obligations.Mmc3ScanlineCounter := by
  refine ⟨fun s r a e => mapperVideoRead_mmc3 e a, fun r => ⟨r.clock_eq, r.asserts_iff⟩, ?law⟩
  rintro r N k reload rfl latch -
  refine ⟨fun first last => ?_, fun on => mmc3Clocks_line_iff reload on latch k, fun off => mmc3Clocks_line_disabled off k⟩
  obtain ⟨j, rfl⟩ := Nat.exists_eq_add_of_le' first
  rw [mmc3Clocks_counter reload false (by omega)]
  bv_omega

/-! ## The reset vector's bank (R714, 70_reset_and_hazards R952) -/

/-- After the reset $E000 shows the last 8 KB of PRG-ROM, but on AxROM the last of 32 KB bank 0; the mirroring is the
header's, but SingleLow on MMC1 and AxROM. -/
theorem mapperReset_lastWindow_mirroring (v : Variant) (c : CartInfo) :
    (mapperReset v c).prg[3] = ⟨.prgRom, if v.number = 7 then 3 else -1⟩ ∧
      (mapperReset v c).mirroring = if v.number = 1 ∨ v.number = 7 then .singleLow else c.headerMirroring := by
  cases v with
  | nrom => rw [mapperReset_nrom_cnrom c _ (by simp)]; exact ⟨rfl, rfl⟩
  | mmc1 r => rw [mapperReset_mmc1_eq]; exact ⟨rfl, rfl⟩
  | uxrom => rw [mapperReset_uxrom]; exact ⟨rfl, rfl⟩
  | cnrom => rw [mapperReset_nrom_cnrom c _ (by simp)]; exact ⟨rfl, rfl⟩
  | mmc3 r => rw [mapperReset_mmc3, mmc3Apply_eq]; exact ⟨rfl, mapperReset_mmc3_mirroring c r⟩
  | axrom => rw [mapperReset_axrom]; exact ⟨rfl, rfl⟩

/-- Settles O30: the windows and the mirroring variant by variant; the power-on reset takes them as they are. -/
theorem mapperResetMapsTheVector : Obligations.MapperResetMapsTheVector := by
  intro c v banks
  obtain ⟨last, mirroring⟩ := mapperReset_lastWindow_mirroring v c
  rw [last]
  refine ⟨(mapperReset_windowsIn v c).prg3, mirroring, rfl, ?_, fun cfg rom chr save d => ⟨rfl, rfl⟩⟩
  split
  · exact bankIndex_nat (by omega) 3
  · exact bankIndex_neg_one (by omega)

/-! ## Loading an image (R702, R703) -/

theorem badMagic_iff (h : List Byte) : (decide (h.length < 16) || !magicOk h) = true ↔ h.length < 16 ∨
    (h.getD 0 0).toNat ≠ 0x4E ∨ (h.getD 1 0).toNat ≠ 0x45 ∨ (h.getD 2 0).toNat ≠ 0x53 ∨ (h.getD 3 0).toNat ≠ 0x1A := by
  simp only [magicOk, imageByte, Bool.or_eq_true, Bool.not_eq_true', Bool.and_eq_false_iff, decide_eq_true_eq,
    decide_eq_false_iff_not, ← BitVec.toNat_inj, BitVec.reduceToNat, or_assoc, ne_eq]

theorem isNes2_eq (h : List Byte) : isNes2 h = decide ((h.getD 7 0).toNat / 4 % 4 = 2) := by
  simp only [isNes2, imageByte, extractLsb'_eq_iff]
  rfl

theorem lowNibble_toNat (b : Byte) : (b.extractLsb' 0 4).toNat = b.toNat % 16 := extractLsb'_zero_toNat b 4

theorem highNibble_toNat (b : Byte) : (b.extractLsb' 4 4).toNat = b.toNat / 16 := by
  have := b.isLt
  rw [extractLsb'_toNat]
  omega

theorem exponentForm_iff (h : List Byte) : exponentForm h = true ↔
    isNes2 h = true ∧ ((h.getD 9 0).toNat % 16 = 15 ∨ (h.getD 9 0).toNat / 16 = 15) := by
  simp only [exponentForm, imageByte, Bool.and_eq_true, Bool.or_eq_true, decide_eq_true_eq, ← BitVec.toNat_inj,
    lowNibble_toNat, highNibble_toNat, BitVec.reduceToNat]

theorem nes2High_low (h : List Byte) (k : Nat) :
    nes2High h k 0 = if isNes2 h then (h.getD k 0).toNat % 16 * 256 else 0 := by
  rw [nes2High, lowNibble_toNat, imageByte]

theorem nes2High_high (h : List Byte) (k : Nat) :
    nes2High h k 4 = if isNes2 h then (h.getD k 0).toNat / 16 * 256 else 0 := by
  rw [nes2High, highNibble_toNat, imageByte]

theorem parseHeader_mapperId (h : List Byte) : (parseHeader h).mapperId = (h.getD 6 0).toNat / 16 +
    (h.getD 7 0).toNat / 16 * 16 + (if isNes2 h then (h.getD 8 0).toNat % 16 * 256 else 0) := by
  rw [← nes2High_low, ← highNibble_toNat, ← highNibble_toNat]
  rfl

theorem parseHeader_prgCount (h : List Byte) : (parseHeader h).prgCount =
    (h.getD 4 0).toNat + (if isNes2 h then (h.getD 9 0).toNat % 16 * 256 else 0) := by
  rw [← nes2High_low]
  rfl

theorem parseHeader_chrCount (h : List Byte) : (parseHeader h).chrCount =
    (h.getD 5 0).toNat + (if isNes2 h then (h.getD 9 0).toNat / 16 * 256 else 0) := by
  rw [← nes2High_high]
  rfl

theorem getLsbD_eq_decide {n : Nat} (v : BitVec n) (i : Nat) : v.getLsbD i = decide (v.toNat / 2 ^ i % 2 = 1) :=
  Nat.testBit_eq_decide_div_mod_eq

theorem parseHeader_mirroring (h : List Byte) : (parseHeader h).mirroring =
    if (h.getD 6 0).toNat % 2 = 1 then .vertical else .horizontal := by
  simp only [parseHeader, imageByte, getLsbD_eq_decide, decide_eq_true_eq, Nat.pow_zero, Nat.div_one]

theorem parseHeader_battery (h : List Byte) : (parseHeader h).battery = decide ((h.getD 6 0).toNat / 2 % 2 = 1) :=
  getLsbD_eq_decide _ 1

theorem parseHeader_prgStart (h : List Byte) : (parseHeader h).prgStart =
    16 + (if (h.getD 6 0).toNat / 4 % 2 = 1 then 512 else 0) := by
  simp only [Header.prgStart, parseHeader, imageByte, getLsbD_eq_decide, decide_eq_true_eq, Nat.reducePow]

/-- A memory made of bytes reads them back from its first address on. -/
theorem Memory.read_ofBytes (bytes : List Byte) (a i : Nat) : (Memory.ofBytes a bytes).read (a + i) = bytes.getD i 0 := by
  induction bytes generalizing a i with
  | nil => rfl
  | cons d rest ih =>
    cases i with
    | zero =>
      have below : (Memory.ofBytes (a + 1) rest).read a = Memory.unlisted :=
        Memory.read_below (Memory.ofBytes_wfFrom (a + 1) rest) (by omega)
      rw [Nat.add_zero, List.getD_cons_zero, Memory.ofBytes]
      split
      case isTrue unlisted => rw [below, unlisted]
      case isFalse => rw [Memory.read, if_pos rfl]
    | succ i =>
      rw [List.getD_cons_succ, ← ih (a + 1) i, Nat.add_assoc, Nat.add_comm 1 i, Memory.ofBytes]
      split
      case isTrue => rfl
      case isFalse => rw [Memory.read, if_neg (by omega)]

/-- A segment of an image reads the image's bytes from its start on. -/
theorem segment_read (image : List Byte) (start : Nat) {size i : Nat} (h : i < size) :
    (Memory.ofBytes 0 ((image.drop start).take size)).read i = image.getD (start + i) 0 := by
  have bytes := Memory.read_ofBytes ((image.drop start).take size) 0 i
  rw [Nat.zero_add] at bytes
  rw [bytes, List.getD_eq_getElem?_getD, List.getElem?_take_of_lt h, List.getElem?_drop, List.getD_eq_getElem?_getD]

/-- The variants of 00_scope R3, by their numbers. -/
theorem ofId_eq_none_iff (n : Nat) : Variant.ofId n = none ↔ n ∉ [0, 1, 2, 3, 4, 7] := by
  unfold Variant.ofId
  split <;> simp_all

theorem ofId_number {n : Nat} {v : Variant} (h : Variant.ofId n = some v) : v.number = n := by
  unfold Variant.ofId at h
  split at h <;> cases h <;> rfl

theorem supportedVariant_eq_none_iff (c : Config) (h : Header) : supportedVariant c h = none ↔
    h.mapperId ∉ c.supportedMappers ∨ h.mapperId ∉ [0, 1, 2, 3, 4, 7] := by
  rw [supportedVariant]
  split
  case isTrue listed => rw [ofId_eq_none_iff]; simp [List.contains_iff_mem.mp listed]
  case isFalse unlisted => simp [List.contains_iff_mem.not.mp unlisted]

theorem supportedVariant_number {c : Config} {h : Header} {v : Variant} (e : supportedVariant c h = some v) :
    v.number = h.mapperId := by
  rw [supportedVariant] at e
  split at e
  case isTrue => exact ofId_number e
  case isFalse => cases e

theorem cartridgeOf_info (h : List Byte) (v : Variant) : (cartridgeOf (parseHeader h) v h).info =
    { prgCount := (parseHeader h).prgCount, chrCount := (parseHeader h).chrCount
      battery := decide ((h.getD 6 0).toNat / 2 % 2 = 1)
      headerMirroring := if (h.getD 6 0).toNat % 2 = 1 then .vertical else .horizontal } := by
  rw [← parseHeader_battery, ← parseHeader_mirroring]
  rfl

/-- The cartridge of an image that passes every check (R703). -/
theorem load_ok {c : Config} {h : List Byte} {v : Variant} (magic : ¬ (decide (h.length < 16) || !magicOk h) = true)
    (sizes : ¬ exponentForm h = true) (prg : (parseHeader h).prgCount ≠ 0)
    (variant : supportedVariant c (parseHeader h) = some v) (long : ¬ h.length < (parseHeader h).imageLength) :
    load c h = .ok (cartridgeOf (parseHeader h) v h) := by
  rw [load, if_neg magic, if_neg sizes, if_neg prg, variant]
  exact if_neg long

/-- Settles O58: the header fields by number, and the checks of `load` in their order. -/
theorem loadChecksTheImage : Obligations.LoadChecksTheImage := by
  intro c h byte nes2 mapperId prgCount chrCount start
  have nes2_eq : nes2 = isNes2 h := (isNes2_eq h).symm
  have mapperId_eq : mapperId = (parseHeader h).mapperId := by rw [parseHeader_mapperId, ← nes2_eq]
  have prgCount_eq : prgCount = (parseHeader h).prgCount := by rw [parseHeader_prgCount, ← nes2_eq]
  have chrCount_eq : chrCount = (parseHeader h).chrCount := by rw [parseHeader_chrCount, ← nes2_eq]
  have start_eq : start = (parseHeader h).prgStart := (parseHeader_prgStart h).symm
  clear_value start chrCount prgCount mapperId nes2
  subst nes2_eq mapperId_eq prgCount_eq chrCount_eq start_eq
  split
  case isTrue magic => rw [load, if_pos ((badMagic_iff h).mpr magic)]
  rename_i magic
  replace magic := (badMagic_iff h).not.mpr magic
  split
  case isTrue sizes => rw [load, if_neg magic, if_pos ((exponentForm_iff h).mpr sizes)]
  rename_i sizes
  replace sizes := (exponentForm_iff h).not.mpr sizes
  split
  case isTrue prg => rw [load, if_neg magic, if_neg sizes, if_pos prg]
  rename_i prg
  split
  case isTrue unknown =>
    rw [load, if_neg magic, if_neg sizes, if_neg prg, (supportedVariant_eq_none_iff c _).mpr unknown]
  rename_i known
  obtain ⟨v, variant⟩ := Option.ne_none_iff_exists'.mp ((supportedVariant_eq_none_iff c _).not.mpr known)
  split
  case isTrue short =>
    rw [load, if_neg magic, if_neg sizes, if_neg prg, variant]
    exact if_pos short
  case isFalse long =>
    exact ⟨_, load_ok magic sizes prg variant long, supportedVariant_number variant, cartridgeOf_info h v,
      fun i => segment_read h _, fun i => segment_read h _, Memory.ofBytes_wf 0 _, Memory.ofBytes_wf 0 _⟩

end Sys2Proof.Machine

/-! # Proofs: the controller port (52_machine_and_host R810)

A strobe of 1 and then 0 leaves the buttons in the shift register with the strobe low. Each read then moves the bits down by
one place and puts a 1 into bit 7, so after k reads bit i is button i + k, or 1 past the last button. -/

namespace Sys2Proof.Machine

/-- The read of $4016: the controller's bit below, a draw above. -/
theorem padRead_value_getLsbD (s : State) {i : Nat} (h : i < 8) :
    (padRead s).value.getLsbD i = if i = 0 then s.pad.bit else (Config.draw s.draws).getLsbD i := by
  change (s.drawn.extractLsb' 1 7 ++ BitVec.ofBool s.pad.bit).getLsbD i = _
  rw [BitVec.getLsbD_append]
  by_cases zero : i = 0
  · simp [zero]
  · have high : 1 + (i - 1) = i := by omega
    have low : i - 1 < 7 := by omega
    simp [State.drawn, zero, high, low]

theorem Pad.afterWrite_eq (p : Pad) (d : Byte) : p.afterWrite d =
    { input := p.input, shift := if p.strobe = true ∨ d.getLsbD 0 = true then p.input else p.shift
      strobe := d.getLsbD 0 } := by
  simp only [Pad.afterWrite, Bool.or_eq_true]

/-- A strobe of 1 and then 0 latches the buttons. -/
theorem Pad.afterStrobe_eq (p : Pad) :
    (p.afterWrite 1).afterWrite 0 = { input := p.input, shift := p.input, strobe := false } := by
  simp [Pad.afterWrite_eq]

@[simp] theorem Pad.afterRead_strobe (p : Pad) : p.afterRead.strobe = p.strobe := by
  rw [Pad.afterRead]
  split <;> rfl

/-- With the strobe low a read moves each bit down by one place, and bit 7 becomes 1. -/
theorem Pad.afterRead_shift_getLsbD {p : Pad} (low : p.strobe = false) {i : Nat} (h : i < 8) :
    p.afterRead.shift.getLsbD i = if i = 7 then true else p.shift.getLsbD (i + 1) := by
  have shift : p.afterRead.shift = (p.shift >>> 1) ||| 0x80 := by simp [Pad.afterRead, low]
  rw [shift, BitVec.getLsbD_or, BitVec.getLsbD_ushiftRight, Nat.add_comm 1 i]
  interval_cases i <;> simp

theorem padReads_strobe (k : Nat) (p : Pad) : (padReads k p).strobe = p.strobe := by
  induction k with
  | zero => rfl
  | succ n ih => rw [padReads, Pad.afterRead_strobe, ih]

/-- After k reads with the strobe low the first k bits are gone and as many ones stand at the top. -/
theorem padReads_shift_getLsbD {p : Pad} (low : p.strobe = false) (k : Nat) {i : Nat} (h : i < 8) :
    (padReads k p).shift.getLsbD i = if i + k < 8 then p.shift.getLsbD (i + k) else true := by
  induction k generalizing i with
  | zero => simp [padReads, h]
  | succ n ih =>
    rw [padReads, Pad.afterRead_shift_getLsbD ((padReads_strobe n p).trans low) h]
    by_cases top : i = 7
    · rw [if_pos top, if_neg (by omega)]
    · rw [if_neg top, ih (by omega), Nat.add_right_comm i 1 n, Nat.add_assoc i n 1]

theorem padReads_bit {p : Pad} (low : p.strobe = false) (k : Nat) :
    (padReads k p).bit = if k < 8 then p.shift.getLsbD k else true := by
  have bit : (padReads k p).bit = (padReads k p).shift.getLsbD 0 := by simp [Pad.bit, padReads_strobe, low]
  rw [bit, padReads_shift_getLsbD low k (by decide), Nat.zero_add]

/-- Settles O60: the write by `Pad.afterWrite_eq`, the read bit by bit, and the reads after a strobe by `padReads_bit`. -/
theorem controllerShiftsOutEightButtons : Obligations.ControllerShiftsOutEightButtons := by
  refine ⟨Pad.afterWrite_eq, fun s => ⟨padRead_value_getLsbD s (by decide), fun i low high => ?draw, rfl⟩, fun p k => ?reads⟩
  case draw => rw [padRead_value_getLsbD s high, if_neg (by omega)]
  case reads => rw [Pad.afterStrobe_eq, padReads_bit rfl]

end Sys2Proof.Machine

/-! # Proofs: interrupt entries and the power-on reset (60_exceptions R910 to R916, 70_reset_and_hazards R950)

An interrupt entry is `takeException` through its vector. The three stack bytes lie at different addresses, so each is read
back from RAM after the entry. The power-on reset is the state before the vector with PC read through the windows of the
mapper's reset, and its PRG-RAM is the drawn one with the save file's bytes stored over it. -/

namespace Sys2Proof.Machine

/-! ## What an exception leaves on the stack (R916) -/

theorem exceptionStack_eq_write (s : State) (ret : Word) (status : Byte) :
    exceptionStack s ret status = (wordStack s ret).write (0x100 + (s.sp - 2).toNat) status := rfl

theorem wordStack_wf {s : State} (canonical : s.ram.wf = true) (ret : Word) : (wordStack s ret).wf = true :=
  Memory.write_wf _ _ (Memory.write_wf _ _ canonical)

theorem exceptionStack_read_other {s : State} {k : Nat} (ret : Word) (status : Byte) (high : k ≠ 0x100 + s.sp.toNat)
    (low : k ≠ 0x100 + (s.sp - 1).toNat) (top : k ≠ 0x100 + (s.sp - 2).toNat) :
    (exceptionStack s ret status).read k = s.ram.read k :=
  (Memory.read_write_other _ _ _ _ top).trans (wordStack_read_other high low)

theorem exceptionStack_read_high {s : State} (canonical : s.ram.wf = true) (ret : Word) (status : Byte) :
    ((exceptionStack s ret status).read (0x100 + s.sp.toNat)).toNat = ret.toNat / 256 := by
  have apart : 0x100 + s.sp.toNat ≠ 0x100 + (s.sp - 2).toNat := by bv_omega
  rw [exceptionStack_eq_write, Memory.read_write_other _ _ _ _ apart, wordStack_read_high canonical]

theorem exceptionStack_read_low {s : State} (canonical : s.ram.wf = true) (ret : Word) (status : Byte) :
    ((exceptionStack s ret status).read (0x100 + (s.sp - 1).toNat)).toNat = ret.toNat % 256 := by
  have apart : 0x100 + (s.sp - 1).toNat ≠ 0x100 + (s.sp - 2).toNat := by bv_omega
  rw [exceptionStack_eq_write, Memory.read_write_other _ _ _ _ apart, wordStack_read_low canonical]

theorem exceptionStack_read_status {s : State} (canonical : s.ram.wf = true) (ret : Word) (status : Byte) :
    (exceptionStack s ret status).read (0x100 + (s.sp - 2).toNat) = status := by
  rw [exceptionStack_eq_write, Memory.read_write (wordStack_wf canonical ret), if_pos rfl]

/-! ## Interrupt entries (R910, R912, R913) -/

theorem interruptPending_iff (s : State) : interruptPending s = true ↔
    s.nmiLine = true ∨ (s.irqLine = true ∧ s.p.getLsbD 2 = false ∧ s.config.irqServiced = true) := by
  simp only [interruptPending, flagI, Bool.or_eq_true, Bool.and_eq_true, Bool.not_eq_true', and_assoc]

theorem cpuStep_of_pending {s : State} (pending : interruptPending s = true) :
    cpuStep s = .next (enterInterrupt s) := by
  rw [cpuStep, if_pos pending]

theorem enterNmi_eq_exceptionStack (s : State) : enterNmi s = { s with
    ram := exceptionStack s s.pc (pushedByInterrupt s.p), sp := s.sp - 3, p := s.p ||| 0x04, nmiLine := false
    pc := vectorAt s 0xFFFA, cur := none } := by
  rw [enterNmi, takeException_eq_exceptionStack _ _ (by decide) (by decide)]
  rfl

theorem enterIrq_eq_exceptionStack (s : State) : enterIrq s = { s with
    ram := exceptionStack s s.pc (pushedByInterrupt s.p), sp := s.sp - 3, p := s.p ||| 0x04
    pc := vectorAt s 0xFFFE, cur := none } := by
  rw [enterIrq, takeException_eq_exceptionStack _ _ (by decide) (by decide)]
  rfl

theorem enterInterrupt_of_nmi {s : State} (nmi : s.nmiLine = true) : enterInterrupt s = charge 7 (enterNmi s) := by
  rw [enterInterrupt, if_pos nmi]

theorem enterInterrupt_of_no_nmi {s : State} (quiet : s.nmiLine = false) :
    enterInterrupt s = charge 7 (enterIrq s) := by
  rw [enterInterrupt, if_neg (ne_true_of_eq_false quiet)]

/-- Settles O48: a pending interrupt makes the step an entry, which is `takeException` through its vector, and the stack
bytes are those of `exceptionStack`. -/
theorem interruptEntry : Obligations.InterruptEntry := by
  intro s
  refine ⟨interruptPending_iff s, ?nmi, ?irq, fun ret status => ⟨fun k => exceptionStack_read_other ret status, ?stack⟩⟩
  case nmi =>
    intro nmi
    have pending : interruptPending s = true := (interruptPending_iff s).mpr (.inl nmi)
    rw [cpuStep_of_pending pending, enterInterrupt_of_nmi nmi, enterNmi_eq_exceptionStack]
    rfl
  case irq =>
    intro quiet irq enabled serviced
    have pending : interruptPending s = true := (interruptPending_iff s).mpr (.inr ⟨irq, enabled, serviced⟩)
    rw [cpuStep_of_pending pending, enterInterrupt_of_no_nmi quiet, enterIrq_eq_exceptionStack]
    rfl
  case stack =>
    exact fun canonical => ⟨exceptionStack_read_high canonical ret status, exceptionStack_read_low canonical ret status,
      exceptionStack_read_status canonical ret status⟩

/-! ## The power-on reset (R950; 52_machine_and_host R820) -/

theorem resetP_getLsbD (flags : Byte) {i : Nat} (h : i < 8) : (resetP flags).getLsbD i =
    if i = 2 ∨ i = 5 then true else if i = 4 then false else flags.getLsbD i := by
  rw [resetP, BitVec.getLsbD_or, BitVec.getLsbD_and]
  interval_cases i <;> simp

/-- The word at the reset vector, through the windows as they are (20_memory R155). -/
theorem memRead16_resetVector (s : State) : (memRead16 resetVector s).value = vectorAt s 0xFFFC := by
  rw [memRead16_vector resetVector s (by decide) (by decide)]
  exact vectorWord_eq (by decide) (by decide) s

theorem powerOn_pc (c : Config) (cart : Cartridge) (save : Option (List Byte)) (d : PowerOn) :
    (powerOn c cart save d).pc = vectorAt (powerOn c cart save d) 0xFFFC :=
  memRead16_resetVector (beforeVector c cart save d)

theorem powerOn_p (c : Config) (cart : Cartridge) (save : Option (List Byte)) (d : PowerOn) :
    (powerOn c cart save d).p = resetP d.flags := rfl

theorem powerOn_prgRam (c : Config) (cart : Cartridge) (save : Option (List Byte)) (d : PowerOn) :
    (powerOn c cart save d).prgRam = resetPrgRam save d.prgRam := rfl

/-- The bytes of a file, read back from the address they were stored at. -/
theorem loadSave_read (file : List Byte) (a : Nat) {m : Memory} (canonical : m.wf = true) (k : Nat) :
    (loadSave file a m).read k = if a ≤ k ∧ k < a + file.length then file.getD (k - a) 0 else m.read k := by
  induction file generalizing a m with
  | nil => rw [loadSave, if_neg (by simp)]
  | cons b rest ih =>
    rw [loadSave, ih (a + 1) (Memory.write_wf a b canonical), Memory.read_write canonical, List.length_cons]
    obtain below | rfl | above := lt_trichotomy k a
    · rw [if_neg (by omega), if_neg (by omega), if_neg (by omega)]
    · rw [if_neg (by omega), if_pos rfl, if_pos (by omega), Nat.sub_self, List.getD_cons_zero]
    · have past : k - a = k - (a + 1) + 1 := by omega
      rw [past, List.getD_cons_succ, if_neg (by omega : k ≠ a)]
      exact if_congr (by omega) rfl rfl

/-- PRG-RAM at power-on holds the save file's first 8,192 bytes and, past the file's end, draws. -/
theorem resetPrgRam_read {drawn : Memory} (canonical : drawn.wf = true) (file : List Byte) {i : Nat} (h : i < 8192) :
    (resetPrgRam (some file) drawn).read i = if i < file.length then file.getD i 0 else drawn.read i := by
  have byte : (file.take 8192).getD i 0 = file.getD i 0 := by
    rw [List.getD_eq_getElem?_getD, List.getD_eq_getElem?_getD, List.getElem?_take_of_lt h]
  rw [resetPrgRam, loadSave_read _ 0 canonical, Nat.sub_zero, byte, List.length_take]
  exact if_congr (by omega) rfl rfl

/-- Settles O57: each field is the one `beforeVector` gives, PC is the word at the reset vector (`powerOn_pc`), P is read
by bit and PRG-RAM by byte. -/
theorem powerOnResetValues : Obligations.PowerOnResetValues := by
  intro c cart save d s
  have flag {i : Nat} (h : i < 8) : s.p.getLsbD i =
      if i = 2 ∨ i = 5 then true else if i = 4 then false else d.flags.getLsbD i := by
    rw [powerOn_p, resetP_getLsbD d.flags h]
  refine ⟨rfl, rfl, rfl, rfl, flag (i := 2) (by decide), flag (i := 5) (by decide), flag (i := 4) (by decide),
    ?drawnFlags, powerOn_pc c cart save d, rfl, rfl, rfl, rfl, rfl, rfl, rfl, rfl, rfl, rfl, rfl, rfl, rfl, rfl, rfl, rfl,
    rfl, ?drawnPrgRam, ?savedPrgRam⟩
  case drawnFlags =>
    simp only [List.forall_mem_cons]
    exact ⟨flag (by decide), flag (by decide), flag (by decide), flag (by decide), flag (by decide), nofun⟩
  case drawnPrgRam =>
    rintro rfl
    exact powerOn_prgRam c cart none d
  case savedPrgRam =>
    rintro file rfl canonical i h
    rw [powerOn_prgRam, resetPrgRam_read canonical file h]

end Sys2Proof.Machine
